-- ==== Sys2Proof/Word.lean ====
section
/-! DEFINITION. The value types of the block: bytes, words, pin levels (spec 00_scope.md section 5, 10_state.md R24). -/

namespace Sys2Proof

/-- A `u8`: one buffer slot, one wire byte (00_scope.md R11). -/
abbrev Byte := BitVec 8

/-- The operation word of the command port (30_encoding.md R80). -/
abbrev Word16 := BitVec 16

/-- The result word of the result port (30_encoding.md R87). -/
abbrev Word32 := BitVec 32

/-- A pin level: 0, 1 or not driven (10_state.md R24). -/
inductive Pin where
  | low
  | high
  | z
deriving DecidableEq, Repr, Inhabited

/-- The driven level of a bit. -/
def Pin.ofBit (b : Bool) : Pin := if b then .high else .low

/-- `XOR(s)` of a byte sequence, `XOR([]) = 0x00` (00_scope.md section 5). -/
def xorAll : List Byte → Byte
  | [] => 0
  | b :: s => b ^^^ xorAll s

end Sys2Proof
end

