-- ==== Sys2Proof/Config.lean ====
section
/-! DEFINITION. The configuration record (00_scope.md R9, R10) and the free values the spec leaves open. -/

namespace Sys2Proof

/-- The configuration record of R9. The defaults are the spec's where it gives one. The four fields without a
default are the OPEN parameters; a run's configuration stands in the state (log 1). -/
structure Config where
  tickRateHz : Nat
  baudRate : Nat
  /-- `W`, the width in bits of the free-running counter. -/
  counterWidth : Nat
  /-- `FE_WIDTH`, the width in bits of the framing-error counter. -/
  feWidth : Nat
  rxTimeoutMs : Nat := 10
  /-- `CAP`, the slots of each circular buffer. -/
  cap : Nat := 128
  maxDebugPayload : Nat := 63
  maxLine : Nat := 128
  mLineStart : Byte := 0xF8
  mLineEnd : Byte := 0xF9
  mDbgStart : Byte := 0xFA
  mDbgEnd : Byte := 0xFB
  mReady : Byte := 0xFC
  mKeyStart : Byte := 0xFD
  mKeyEnd : Byte := 0xFE
  mPad : Byte := 0xFF
  keyShift : Byte := 0x10
  keySym : Byte := 0x11
deriving DecidableEq, Repr

/-- `BIT`, the bit period in ticks (R9, D4). -/
def Config.bit (c : Config) : Nat := c.tickRateHz / c.baudRate

/-- `HALF`, the half-bit period in ticks (R9, D4). -/
def Config.half (c : Config) : Nat := c.bit / 2

/-- `TIMEOUT_TICKS`, the receive window in ticks (R9, D7). -/
def Config.timeoutTicks (c : Config) : Nat := c.tickRateHz * c.rxTimeoutMs / 1000

/-- The eight marker bytes `M_*` (R9, R91). -/
def Config.markers (c : Config) : List Byte :=
  [c.mLineStart, c.mLineEnd, c.mDbgStart, c.mDbgEnd, c.mReady, c.mKeyStart, c.mKeyEnd, c.mPad]

/-- A well-formed configuration (R10). -/
abbrev Config.WellFormed (c : Config) : Prop :=
  2 ≤ c.bit ∧ c.bit ≤ 2 ^ c.counterWidth - 1 ∧ 1 ≤ c.timeoutTicks ∧ 2 ≤ c.cap ∧ 1 ≤ c.maxDebugPayload ∧
    c.maxLine ≤ 255 ∧ 1 ≤ c.feWidth ∧ c.feWidth ≤ 31 ∧ c.markers.Nodup

/-- The example configuration of 95_test_vectors.md, with which `State.reset` is built. DESIGN CHOICE (log 1): the
spec leaves TICK_RATE_HZ, BAUD_RATE, W and FE_WIDTH open; unsafe for a claim about the reset state alone. -/
def Config.ofVectors : Config :=
  { tickRateHz := 16000, baudRate := 1000, counterWidth := 8, feWidth := 8 }

/-- Free value: the level the peer drives at tick `t` where the state lists none (R42: `rx_in(t)` is a free input). -/
opaque Config.freeRxLevel (t : Nat) : Pin

/-- Free value: what `sample(t)` reads when the pin is not driven and the pull-up is off (R43 gives no value). -/
opaque Config.freeRxFloat (t : Nat) : Bool

/-- Free value: the result word for a number of 2^32 or more, which `zext_32` does not cover (R87, log 14). -/
opaque Config.freeWideResult (n : Nat) : Word32

end Sys2Proof
end

