-- ==== Sys2Proof/Syntax.lean ====
section
/-! DEFINITION. The instructions: one constructor per row of spec/opcode_table.json (13 operations of the command port,
30_encoding.md R82, and 6 wire formats, R90 to R97), and the pseudo-instructions of R100. -/

namespace Sys2Proof

inductive Instr where
  /-- BEGIN, op 0x01 (R114). -/
  | begin_
  /-- AVAILABLE, op 0x02 (R115). -/
  | available
  /-- READ, op 0x03 (R116). -/
  | read
  /-- WRITE, op 0x04, `imm8` the byte (R117). -/
  | write (b : Byte)
  /-- UPDATE, op 0x05 (R118). -/
  | update
  /-- GET_FE, op 0x06 (R119). -/
  | getFe
  /-- GET_STATUS, op 0x07 (R120). -/
  | getStatus
  /-- SEND_KEY, op 0x10, `imm8` the code (R183). -/
  | sendKey (code : Byte)
  /-- SEND_LINE, op 0x11, `imm8` the length and the payload the characters (R184). -/
  | sendLine (chars : List Byte)
  /-- SEND_DEBUG, op 0x12, the payload the text (R185). -/
  | sendDebug (text : List Byte)
  /-- SEND_READY, op 0x13 (R186). -/
  | sendReady
  /-- READ_U8, op 0x14 (R187). -/
  | readU8
  /-- READ_U16, op 0x15 (R188). -/
  | readU16
  /-- KEY_FRAME on the wire (R92). -/
  | keyFrame (code : Byte)
  /-- LINE_FRAME on the wire (R94). -/
  | lineFrame (chars : List Byte)
  /-- DEBUG_FRAME on the wire (R95). -/
  | debugFrame (text : List Byte)
  /-- READY_FRAME on the wire (R96). -/
  | readyFrame
  /-- COMMAND_FRAME_IN, driven by the peer (R97). -/
  | commandFrameIn (opcode : Byte) (args : List Byte)
  /-- SERIAL_CHAR, one character driven by the peer (R90). -/
  | serialChar (b : Byte)
deriving DecidableEq, Repr

/-- A statement of the assembly language: an operation, or a pseudo-instruction of R100. -/
inductive Stmt where
  | op (i : Instr)
  | sendShift
  | sendSym
  | sendModKey (modifier code : Byte)
  | waitIdle
deriving DecidableEq, Repr

end Sys2Proof
end

