-- ==== Sys2Proof/Machine/Frames.lean ====
section
/-! DEFINITION. Checksums, frame builders (42_framer.md R180, R181), the character's bit slots (30_encoding.md R90) and
the events of the reference decoder (R191). -/

namespace Sys2Proof.Machine

/-- `KeyChk` (R180). -/
def keyChk (c : Config) (code : Byte) : Byte := c.mKeyStart ^^^ code

/-- `LineChk` (R180); the length field is one byte (R11). -/
def lineChk (c : Config) (chars : List Byte) : Byte :=
  c.mLineStart ^^^ BitVec.ofNat 8 chars.length ^^^ xorAll chars

/-- `KeyFrame` (R92, R181). -/
def keyFrameBytes (c : Config) (code : Byte) : List Byte :=
  [c.mKeyStart, code, keyChk c code, c.mKeyEnd]

/-- `LineFrame` (R94, R181). -/
def lineFrameBytes (c : Config) (chars : List Byte) : List Byte :=
  [c.mLineStart, BitVec.ofNat 8 chars.length] ++ chars ++ [lineChk c chars, c.mLineEnd]

/-- One `DebugFrame` (R95, R181). -/
def debugFrameBytes (c : Config) (text : List Byte) : List Byte :=
  [c.mDbgStart] ++ text ++ [c.mDbgEnd]

/-- `ReadyFrame` (R96, R181). -/
def readyFrameBytes (c : Config) : List Byte := [c.mPad, c.mPad, c.mReady]

/-- The consecutive chunks of at most `m` bytes, the first argument bounding their number. -/
def chunksUpTo : Nat → Nat → List Byte → List (List Byte)
  | 0, _, _ => []
  | _ + 1, _, [] => []
  | n + 1, m, b :: s => (b :: s).take m :: chunksUpTo n m ((b :: s).drop m)

/-- The chunks of a debug text (R181): all but the last of `MAX_DEBUG_PAYLOAD` bytes, none of an empty text. -/
def debugChunks (c : Config) (text : List Byte) : List (List Byte) :=
  chunksUpTo text.length c.maxDebugPayload text

/-- `DebugFrames` (R181, R185). -/
def debugFramesBytes (c : Config) (text : List Byte) : List Byte :=
  ((debugChunks c text).map (debugFrameBytes c)).flatten

/-- The ten bit slots of one character: start 0, the data bits least significant first, stop 1 (R62, R90). -/
def charSlots (b : Byte) : List Bool :=
  [false, b.getLsbD 0, b.getLsbD 1, b.getLsbD 2, b.getLsbD 3, b.getLsbD 4, b.getLsbD 5, b.getLsbD 6, b.getLsbD 7, true]

/-- Which frame kind an event of a broken end marker names (R192 to R194). -/
inductive FrameKind where
  | key
  | line
  | debug
deriving DecidableEq, Repr

/-- The events of the reference decoder (R191). -/
inductive Event where
  | key (code : Byte)
  | keyBadChk (code chk : Byte)
  | line (chars : List Byte)
  | lineBadChk (chars : List Byte) (chk : Byte)
  | lineBadLen (len : Byte)
  | debug (text : List Byte)
  | ready
  | badEnd (kind : FrameKind)
  | skip (b : Byte)
  | incomplete (rest : List Byte)
deriving DecidableEq, Repr

end Sys2Proof.Machine
end

