-- ==== Sys2Proof/Machine/HostDecoder.lean ====
section
/-! DEFINITION. The reference frame decoder of the host side (42_framer.md R191 to R196). -/

namespace Sys2Proof.Machine

/-- What the decoder makes of the front of a stream: an event and the stream it continues at, or not enough bytes yet
(the case in which R192 to R195 give `Incomplete`). -/
inductive Scan where
  | item (e : Event) (rest : List Byte)
  | wait
deriving DecidableEq, Repr

/-- R192, for a stream `m :: s` whose first byte is the key start marker. -/
def scanKey (c : Config) (s : List Byte) : Scan :=
  match s with
  | code :: chk :: fin :: rest =>
    if fin ≠ c.mKeyEnd then .item (.badEnd .key) s
    else if chk ≠ keyChk c code then .item (.keyBadChk code chk) rest
    else .item (.key code) rest
  | _ => .wait

/-- R193, for a stream `m :: s` whose first byte is the line start marker. -/
def scanLine (c : Config) (s : List Byte) : Scan :=
  match s with
  | [] => .wait
  | len :: r =>
    if c.maxLine < len.toNat then .item (.lineBadLen len) s
    else
      match r.drop len.toNat with
      | chk :: fin :: rest =>
        if fin ≠ c.mLineEnd then .item (.badEnd .line) s
        else if chk ≠ lineChk c (r.take len.toNat) then .item (.lineBadChk (r.take len.toNat) chk) rest
        else .item (.line (r.take len.toNat)) rest
      | _ => .wait

/-- R194, for a stream `m :: s` whose first byte is the debug start marker: the text runs to the first end marker,
which stands after at most `MAX_DEBUG_PAYLOAD` bytes. -/
def scanDebug (c : Config) (s : List Byte) : Scan :=
  let text := (s.take (c.maxDebugPayload + 1)).takeWhile (fun b => b != c.mDbgEnd)
  match (s.take (c.maxDebugPayload + 1)).drop text.length with
  | _ :: _ => .item (.debug text) (s.drop (text.length + 1))
  | [] => if s.length < c.maxDebugPayload + 1 then .wait else .item (.badEnd .debug) s

/-- R195, for a stream `m :: s` whose first byte is the padding byte. -/
def scanReady (c : Config) (s : List Byte) : Scan :=
  match s with
  | [] => .wait
  | b :: r =>
    if b ≠ c.mPad then .item (.skip c.mPad) s
    else
      match r with
      | [] => .wait
      | e :: rest => if e = c.mReady then .item .ready rest else .item (.skip c.mPad) s

/-- One step of the decoder at a non-empty stream `b :: s` (R191): the first of R192 to R196 whose byte matches. -/
def scanAt (c : Config) (b : Byte) (s : List Byte) : Scan :=
  if b = c.mKeyStart then scanKey c s
  else if b = c.mLineStart then scanLine c s
  else if b = c.mDbgStart then scanDebug c s
  else if b = c.mPad then scanReady c s
  else .item (.skip b) s

/-- `Decode` with a bound on the number of events; every event takes at least one byte. -/
def hostDecodeUpTo (c : Config) : Nat → List Byte → List Event
  | 0, _ => []
  | _ + 1, [] => []
  | n + 1, b :: s =>
    match scanAt c b s with
    | .wait => [.incomplete (b :: s)]
    | .item e rest => e :: hostDecodeUpTo c n rest

/-- `Decode(s)` (R191). -/
def hostDecode (c : Config) (s : List Byte) : List Event := hostDecodeUpTo c s.length s

/-- The wire-format row an event reads, for the events of a whole, right frame. -/
def Event.frame : Event → Option Instr
  | .key code => some (.keyFrame code)
  | .line chars => some (.lineFrame chars)
  | .debug text => some (.debugFrame text)
  | .ready => some .readyFrame
  | .keyBadChk _ _ => none
  | .lineBadChk _ _ => none
  | .lineBadLen _ => none
  | .badEnd _ => none
  | .skip _ => none
  | .incomplete _ => none

end Sys2Proof.Machine
end

