-- ==== Sys2Proof/WellFormed.lean ====
section
/-! DEFINITION. Which operands an instruction may carry under a configuration (30_encoding.md R86, R94, R95). -/

namespace Sys2Proof

/-- The operands the encoding and the configuration admit. `sendLine`: R86, with the length field one byte (R11).
`lineFrame`: R94, R193. `debugFrame`: R95 bounds the text, and R194 ends the frame at the first end marker, so a text
that holds one is another frame on the wire (log 11). -/
def Instr.wellFormed (c : Config) : Instr → Bool
  | .begin_ => true
  | .available => true
  | .read => true
  | .write _ => true
  | .update => true
  | .getFe => true
  | .getStatus => true
  | .sendKey _ => true
  | .sendLine chars => decide (chars.length ≤ c.maxLine)
  | .sendDebug _ => true
  | .sendReady => true
  | .readU8 => true
  | .readU16 => true
  | .keyFrame _ => true
  | .lineFrame chars => decide (chars.length ≤ c.maxLine)
  | .debugFrame text => decide (text.length ≤ c.maxDebugPayload ∧ c.mDbgEnd ∉ text)
  | .readyFrame => true
  | .commandFrameIn _ _ => true
  | .serialChar _ => true

end Sys2Proof
end

