-- ==== Sys2Proof/Decode.lean ====
section
/-! DEFINITION. The decoder and the encoder of every row of the opcode table: the command port's word (30_encoding.md R80
to R89), the frames on the wire (R91 to R97) and the serial character (R90). -/

namespace Sys2Proof

open Sys2Proof.Machine

/-- What an agent puts on one of the block's connections. -/
inductive Presented where
  /-- The client's request `(w, P)` on the command port (R80). -/
  | request (word : Word16) (payload : List Byte)
  /-- A frame on the TX wire, outbound (R92 to R96). -/
  | outbound (bytes : List Byte)
  /-- A command frame on the RX wire, inbound (R97). -/
  | inbound (bytes : List Byte)
  /-- The bit slots of one character (R90). -/
  | slots (levels : List Bool)
deriving DecidableEq, Repr

/-- Why the decoder rejects. The first two are the checks (1), (2) and (3) of R88. -/
inductive DecodeError where
  /-- A reserved operation code or a non-zero reserved `imm8` (R84, R85). -/
  | illegalOp
  /-- A payload that breaks R86 whatever the configuration. -/
  | badOperand
  /-- Bytes that are not one whole, right outbound frame. -/
  | notAFrame
  /-- An inbound frame without an opcode byte. -/
  | emptyCommand
  /-- Levels that are not the ten slots of a character. -/
  | notACharacter
deriving DecidableEq, Repr

/-- Checks (2) and (3) of R88 for an operation without operand. -/
def plainRequest (imm : Byte) (payload : List Byte) (i : Instr) : Except DecodeError Instr :=
  if imm ≠ 0 then .error .illegalOp else if payload ≠ [] then .error .badOperand else .ok i

/-- Check (3) of R88 for an operation whose operand is `imm8`. -/
def byteRequest (payload : List Byte) (i : Instr) : Except DecodeError Instr :=
  if payload ≠ [] then .error .badOperand else .ok i

/-- The request decoder: R82 to R86 in the order of R88; the bound `MAX_LINE` of R86 is `Instr.wellFormed`'s. -/
def decodeRequest (word : Word16) (payload : List Byte) : Except DecodeError Instr :=
  let imm := word.extractLsb' 0 8
  match (word.extractLsb' 8 8).toNat with
  | 0x01 => plainRequest imm payload .begin_
  | 0x02 => plainRequest imm payload .available
  | 0x03 => plainRequest imm payload .read
  | 0x04 => byteRequest payload (.write imm)
  | 0x05 => plainRequest imm payload .update
  | 0x06 => plainRequest imm payload .getFe
  | 0x07 => plainRequest imm payload .getStatus
  | 0x10 => byteRequest payload (.sendKey imm)
  | 0x11 => if payload.length ≠ imm.toNat then .error .badOperand else .ok (.sendLine payload)
  | 0x12 => if imm ≠ 0 then .error .illegalOp else .ok (.sendDebug payload)
  | 0x13 => plainRequest imm payload .sendReady
  | 0x14 => plainRequest imm payload .readU8
  | 0x15 => plainRequest imm payload .readU16
  | _ => .error .illegalOp

/-- One outbound frame, whole and right, with nothing after it (R92 to R96 read by R192 to R195). -/
def decodeOutbound (c : Config) (bytes : List Byte) : Except DecodeError Instr :=
  match bytes with
  | [] => .error .notAFrame
  | b :: s =>
    match scanAt c b s with
    | .item e [] =>
      match e.frame with
      | some i => .ok i
      | none => .error .notAFrame
    | _ => .error .notAFrame

/-- An inbound command frame: an opcode byte and its arguments, no value of which has a meaning here (R97). -/
def decodeInbound : List Byte → Except DecodeError Instr
  | [] => .error .emptyCommand
  | opcode :: args => .ok (.commandFrameIn opcode args)

/-- The byte whose bits are listed least significant first. -/
def byteOfBits (bits : List Bool) : Byte :=
  BitVec.ofNat 8 (bits.foldr (fun b n => b.toNat + 2 * n) 0)

/-- One character: start slot 0, eight data slots, stop slot 1 (R90). -/
def decodeSlots : List Bool → Except DecodeError Instr
  | [false, b0, b1, b2, b3, b4, b5, b6, b7, true] => .ok (.serialChar (byteOfBits [b0, b1, b2, b3, b4, b5, b6, b7]))
  | _ => .error .notACharacter

/-- The decoder, total on whatever stands on a connection. -/
def decode (c : Config) : Presented → Except DecodeError Instr
  | .request word payload => decodeRequest word payload
  | .outbound bytes => decodeOutbound c bytes
  | .inbound bytes => decodeInbound bytes
  | .slots levels => decodeSlots levels

/-- The operation word: `op` in bits 15:8, `imm8` in bits 7:0 (R80). -/
def opWord (op imm : Byte) : Word16 := op ++ imm

/-- The encoder, from R82 (requests), R92 to R97 (frames) and R90 (characters). -/
def encode (c : Config) : Instr → Presented
  | .begin_ => .request (opWord 0x01 0) []
  | .available => .request (opWord 0x02 0) []
  | .read => .request (opWord 0x03 0) []
  | .write b => .request (opWord 0x04 b) []
  | .update => .request (opWord 0x05 0) []
  | .getFe => .request (opWord 0x06 0) []
  | .getStatus => .request (opWord 0x07 0) []
  | .sendKey code => .request (opWord 0x10 code) []
  | .sendLine chars => .request (opWord 0x11 (BitVec.ofNat 8 chars.length)) chars
  | .sendDebug text => .request (opWord 0x12 0) text
  | .sendReady => .request (opWord 0x13 0) []
  | .readU8 => .request (opWord 0x14 0) []
  | .readU16 => .request (opWord 0x15 0) []
  | .keyFrame code => .outbound (keyFrameBytes c code)
  | .lineFrame chars => .outbound (lineFrameBytes c chars)
  | .debugFrame text => .outbound (debugFrameBytes c text)
  | .readyFrame => .outbound (readyFrameBytes c)
  | .commandFrameIn opcode args => .inbound (opcode :: args)
  | .serialChar b => .slots (charSlots b)

/-- The payload bytes that stand above the 16-bit word in a table row of `nbits` bits. -/
def tablePayload : Nat → Nat → List Byte
  | 0, _ => []
  | n + 1, w => BitVec.ofNat 8 w :: tablePayload n (w / 256)

/-- The request that a table row's bits stand for: the word in bits 15..0, then the payload bytes the row has; a
`SEND_LINE` that has fewer than its length says is filled up with zeros. -/
def tableRequest (nbits w : Nat) : Word16 × List Byte :=
  let word := BitVec.ofNat 16 w
  let given := tablePayload ((nbits - 16) / 8) (w / 65536)
  let need := if word.extractLsb' 8 8 = 0x11#8 then (word.extractLsb' 0 8).toNat else 0
  (word, given ++ List.replicate (need - given.length) 0)

/-- The instruction the decoder reads from a table row's bits. -/
def decodeTableWord (nbits w : Nat) : Option Instr :=
  (decodeRequest (tableRequest nbits w).1 (tableRequest nbits w).2).toOption

end Sys2Proof
end

