-- ==== Sys2Proof/Machine/State.lean ====
section
/-! DEFINITION. The state of the block (10_state.md R21), of its two ports and of the two agents outside it; the reasons a
step can stop; the state after reset (R49). Plain data. -/

namespace Sys2Proof.Machine

/-- The sequencer phase (R22). -/
inductive Phase where
  | unconf
  | idle
  | listen
  | rxHalf
  | rxBit
  | rxStop
  | flush
  | opseq
  | tx
deriving DecidableEq, Repr

/-- The phase to resume after a transmitted byte (R40). -/
inductive TxRet where
  | flush
  | opseq
deriving DecidableEq, Repr

/-- The two storage arrays (20_memory.md R56). -/
inductive Buffer where
  | rx
  | tx
deriving DecidableEq, Repr

/-- The slots of one array, as the pairs of an index and its byte: indices strictly rising, no pair whose byte is the
one an unlisted slot reads as (`Memory.wf`). -/
abbrev Memory := List Host.Cell

/-- One circular buffer: its slots, its write index and its read index (R30). -/
structure Ring where
  slots : Memory
  head : Nat
  tail : Nat
deriving DecidableEq, Repr

/-- The progress of the operation on the port (R45). -/
inductive Stage where
  | new
  | sending
  | haveHi (hi : Byte)
deriving DecidableEq, Repr

/-- The port register (R45): the operation accepted, its frame bytes computed at acceptance, its stage. The fields `op`,
`imm8` and `payload` of R45 are held as the instruction they decode to. -/
structure PortOp where
  instr : Instr
  frame : List Byte
  stage : Stage
deriving DecidableEq, Repr

/-- The codes of the fault register (60_exceptions.md R221). -/
inductive FaultCode where
  /-- Code 1. -/
  | notConfigured
  /-- Code 2. -/
  | illegalOp
  /-- Code 3. -/
  | badOperand
deriving DecidableEq, Repr

/-- The fault register's content (R46, R224): the code, the request word and, for BAD_OPERAND, the payload length. -/
structure FaultRecord where
  code : FaultCode
  word : Word16
  len : Option Nat
deriving DecidableEq, Repr

/-- What the sequencer and the ports hold at the start of a tick and a port operation's conditions read as `S_t`
(40_link.md R112, R117, R182). The model's own register (log 8). -/
structure TickStart where
  phase : Phase
  receiving : Bool
  pend : List Byte
deriving DecidableEq, Repr

/-- What the client will do on the command port (log 6): present a request at the first tick that is not before
`notBefore` and finds the port free (R99, R110), or, from the first tick not before
`notBefore`, poll the status word until BUSY is 0 (R100; that the tick annotation of a `waitidle` line is the tick its
polling begins is a DESIGN CHOICE, log 20). -/
inductive ClientItem where
  | request (notBefore : Nat) (word : Word16) (payload : List Byte)
  | waitIdle (notBefore : Nat)
deriving DecidableEq, Repr

/-- What the peer will drive on the RX pin (log 21): a level for one tick (R42), a character (R90), a command frame
(R97). -/
inductive LineItem where
  | level (p : Pin)
  | char (b : Byte)
  | command (opcode : Byte) (args : List Byte)
deriving DecidableEq, Repr

/-- Why a step stops with a fault. -/
inductive Fault where
  /-- Raised by a push or a pop whose index is not below `CAP`: the slot does not exist (R56, R57). Safe: the step stops
  where the spec makes no access. -/
  | slotOutOfRange (buffer : Buffer) (index : Nat)
deriving DecidableEq, Repr

/-- Why a step is refused. -/
inductive Refusal where
  /-- Raised by an arm of `exec` whose instruction has no meaning yet. Safe. -/
  | notModelled (mnemonic : String)
  /-- CONFIG_INVALID (R221 code 4, R226), raised by `step` when the configuration breaks R10; it records the
  configuration. Safe: the spec gives such a configuration no run. -/
  | configInvalid (cfg : Config)
deriving DecidableEq, Repr

/-- The whole state. -/
structure State where
  /-- The configuration of the run (00_scope.md R9). -/
  cfg : Config
  phase : Phase
  txOut : Pin
  readyOut : Pin
  rxPullup : Bool
  /-- Below `2 ^ W` in every state of a run (R31). -/
  counter : Nat
  cntRun : Bool
  ie : Bool
  savedIe : Bool
  receiving : Bool
  /-- Below `2 ^ FE_WIDTH` in every state of a run (R29). -/
  fe : Nat
  /-- `rx_buf`, `rx_head`, `rx_tail` (R30). -/
  rx : Ring
  /-- `tx_buf`, `tx_head`, `tx_tail` (R30). -/
  tx : Ring
  windowStart : Nat
  prevRx : Bool
  rxAcc : Byte
  rxK : Fin 8
  txByte : Byte
  txSlot : Fin 10
  txRet : TxRet
  pend : List Byte
  port : Option PortOp
  fault : Option FaultRecord
  now : Nat
  /-- The result port of the tick just taken: the result word with the done strobe, or no strobe (R44, R87, R140). -/
  result : Option Word32
  /-- The model's own (log 8). -/
  atStart : TickStart
  /-- The model's own: what the client has still to do, oldest first (log 6). -/
  client : List ClientItem
  /-- The model's own: what the peer drives from this tick on (log 4, log 21). -/
  peerLine : List LineItem
  /-- The model's own: bytes sent on the TX wire that the peer's decoder has not taken yet (log 9). -/
  hostIn : List Byte
  /-- The model's own: the events of the peer's decoder so far (R191, log 9). -/
  hostEvents : List Event
deriving DecidableEq, Repr

/-- `S_0` (R49). The values R49 leaves unspecified (counter, savedIe, rxAcc, rxK, txByte, txSlot, txRet) are DESIGN
CHOICES (log 2), the configuration too (log 1). -/
def State.reset : State where
  cfg := Config.ofVectors
  phase := .unconf
  txOut := .z
  readyOut := .z
  rxPullup := false
  counter := 0
  cntRun := false
  ie := true
  savedIe := false
  receiving := false
  fe := 0
  rx := { slots := [], head := 0, tail := 0 }
  tx := { slots := [], head := 0, tail := 0 }
  windowStart := 0
  prevRx := true
  rxAcc := 0
  rxK := 0
  txByte := 0
  txSlot := 0
  txRet := .flush
  pend := []
  port := none
  fault := none
  now := 0
  result := none
  atStart := { phase := .unconf, receiving := false, pend := [] }
  client := []
  peerLine := []
  hostIn := []
  hostEvents := []

end Sys2Proof.Machine
end

