-- ==== Sys2Proof/Machine/Ops.lean ====
section
/-! DEFINITION. The named operations over buffers, counter, critical section and ports that the phases and the
instructions share, taking a fault among them (60_exceptions.md R222). -/

namespace Sys2Proof.Machine

/-! ### Slots -/

/-- What a slot that nothing has written reads as. DESIGN CHOICE (log 3), unsafe: R49 leaves it unspecified. -/
def unwrittenSlot : Byte := 0

/-- `MemRead` (R57). -/
def Memory.read : Memory → Nat → Byte
  | [], _ => unwrittenSlot
  | (i, v) :: m, a => if i = a then v else Memory.read m a

/-- `MemWrite` (R57), keeping the canonical form. -/
def Memory.write : Memory → Nat → Byte → Memory
  | [], a, v => if v = unwrittenSlot then [] else [(a, v)]
  | (i, w) :: m, a, v =>
    if i < a then (i, w) :: Memory.write m a v
    else if i = a then (if v = unwrittenSlot then m else (a, v) :: m)
    else if v = unwrittenSlot then (i, w) :: m
    else (a, v) :: (i, w) :: m

/-- The canonical form: indices strictly rising, no pair that reads as an unlisted slot. -/
def Memory.wf (m : Memory) : Bool :=
  decide (m.Pairwise (fun p q => p.1 < q.1)) && m.all (fun p => p.2 != unwrittenSlot)

/-! ### Circular buffers -/

/-- The full test of R30. -/
def Ring.full (cap : Nat) (r : Ring) : Bool := decide ((r.head + 1) % cap = r.tail)

/-- `Count` (R60): `(head - tail) mod CAP`, the mathematical remainder. -/
def Ring.count (cap : Nat) (r : Ring) : Nat := (((r.head : Int) - (r.tail : Int)) % (cap : Int)).toNat

/-- `Push` (R58): a full buffer drops the byte. -/
def Ring.push (cap : Nat) (b : Buffer) (r : Ring) (v : Byte) : Except Fault Ring :=
  if (r.head + 1) % cap = r.tail then .ok r
  else if r.head < cap then
    .ok { r with slots := r.slots.write r.head v, head := (r.head + 1) % cap }
  else .error (.slotOutOfRange b r.head)

/-- `Pop` (R59): `none` of an empty buffer, else the byte at the read index. -/
def Ring.pop (cap : Nat) (b : Buffer) (r : Ring) : Except Fault (Option Byte × Ring) :=
  if r.head = r.tail then .ok (none, r)
  else if r.tail < cap then .ok (some (r.slots.read r.tail), { r with tail := (r.tail + 1) % cap })
  else .error (.slotOutOfRange b r.tail)

/-- The pushes of `Enqueue` on one buffer (R122): every byte is tried, in order. -/
def Ring.pushAll (cap : Nat) (b : Buffer) (r : Ring) : List Byte → Except Fault Ring
  | [] => .ok r
  | v :: vs =>
    match r.push cap b v with
    | .ok r' => r'.pushAll cap b vs
    | .error f => .error f

/-! ### Counter (R34, R35) -/

/-- `ResetCounter()` (R34). -/
def State.resetCounter (s : State) : State := { s with counter := 0 }

/-- `WaitDone(N)` (R35). -/
def State.waitDone (s : State) (n : Nat) : Bool := decide (n ≤ s.counter)

/-! ### Critical section (R36) -/

/-- Entry: `saved_ie <- ie; ie <- 0`. -/
def State.enterCritical (s : State) : State := { s with savedIe := s.ie, ie := false }

/-- Exit: `ie <- saved_ie`. -/
def State.exitCritical (s : State) : State := { s with ie := s.savedIe }

/-! ### Receive input (R42, R43) -/

/-- `rx_in(t)`: the level the peer drives at this tick, a free value where the state lists none (log 4). -/
def State.rxIn (s : State) : Pin :=
  match s.peerLine with
  | .level p :: _ => p
  | _ => Config.freeRxLevel s.now

/-- `sample(t)` (R43); an undriven pin without pull-up reads a free value (log 5). -/
def State.sample (s : State) : Bool :=
  match s.rxIn with
  | .low => false
  | .high => true
  | .z => if s.rxPullup then true else Config.freeRxFloat s.now

/-! ### Shared procedures of the phases and the operations -/

/-- `SessionStart(t)` (R121), at the tick `now`. -/
def State.sessionStart (s : State) : State :=
  { s with readyOut := .low, receiving := true, windowStart := s.now, prevRx := true, phase := .listen }

/-- `SeqStart(seq)` (R123). -/
def State.seqStart (s : State) (bytes : List Byte) : State := { s with pend := bytes, phase := .opseq }

/-- `TxStart(b, ret)` (R159). -/
def State.txStart (s : State) (b : Byte) (ret : TxRet) : State :=
  { s.enterCritical.resetCounter with txOut := .low, txByte := b, txSlot := 0, txRet := ret, phase := .tx }

/-- The phase a transmitted byte returns to (R40). -/
def TxRet.phase : TxRet → Phase
  | .flush => .flush
  | .opseq => .opseq

/-- The pins and the counter start of `begin()` (R24, R114). -/
def State.configurePins (s : State) : State :=
  { s with txOut := .high, readyOut := .high, rxPullup := true, cntRun := true }

/-! ### The command port and the result port -/

/-- Acceptance: `port <- (op, imm8, P, NEW)`, with the frame computed (R45, R110). -/
def State.accept (s : State) (i : Instr) (frame : List Byte) : State :=
  { s with port := some { instr := i, frame := frame, stage := .new } }

/-- Completion: the done strobe with the result word, the port free (R87, R110). -/
def State.complete (s : State) (r : Word32) : State := { s with port := none, result := some r }

/-- `st <- stage` of the operation in progress (R45). -/
def State.setStage (s : State) (p : PortOp) (stage : Stage) : State :=
  { s with port := some { p with stage := stage } }

/-- `raise F(info)` (R222): taking a model fault. It saves the fault record and frees the port; it drives no result.
There is no return from it: the record stays until reset (R223, R229). -/
def State.raise (s : State) (code : FaultCode) (word : Word16) (len : Option Nat) : State :=
  { s with port := none, fault := some { code := code, word := word, len := len } }

/-- The operation word of an instruction, 0 for a wire format (R80). -/
def requestWord (c : Config) (i : Instr) : Word16 :=
  match encode c i with
  | .request word _ => word
  | _ => 0

/-- The outcome of a meaning that can fault on a slot. -/
def settle : Except Fault State → Host.Outcome State Fault Refusal
  | .ok s => .next s
  | .error f => .fault f

/-- The port protocol of R110 and check (4) of R88. An operation in progress is evaluated in its stage; a new request
raises NOT_CONFIGURED before `BEGIN` if it `needsBegin`, else it is accepted and evaluated at the same tick. -/
def portOperation (i : Instr) (frame : List Byte) (needsBegin : Bool)
    (body : PortOp → State → Except Fault State) (s : State) : Host.Outcome State Fault Refusal :=
  match s.port with
  | some p => settle (body p s)
  | none =>
    if needsBegin = true ∧ s.atStart.phase = .unconf then
      .next (s.raise .notConfigured (requestWord s.cfg i) none)
    else settle (body { instr := i, frame := frame, stage := .new } (s.accept i frame))

/-- The send path (R117, R182): defer while receiving, send from IDLE, hold in any other phase; once sending, complete
at the tick at which the sequencer finds nothing left to send. No rule gives a send operation the stage HAVE_HI
(log 13). -/
def sendPath (p : PortOp) (s : State) : Except Fault State :=
  match p.stage with
  | .new =>
    if s.atStart.receiving then
      match s.tx.pushAll s.cfg.cap .tx p.frame with
      | .ok r => .ok (State.complete { s with tx := r } 0)
      | .error f => .error f
    else if s.atStart.phase = .idle then .ok ((s.seqStart p.frame).setStage p .sending)
    else .ok s
  | .sending =>
    if s.atStart.phase = .opseq ∧ s.atStart.pend = [] then .ok (s.complete 0) else .ok s
  | .haveHi _ => .ok s

/-! ### The peer's side -/

/-- The levels one character takes on the RX wire, `BIT` ticks a slot (R90). -/
def charLevels (c : Config) (b : Byte) : List LineItem :=
  (charSlots b).flatMap (fun l => List.replicate c.bit (.level (Pin.ofBit l)))

/-- The peer drives a character from this tick on, before what it was to drive (R90, log 21). -/
def State.driveChar (s : State) (b : Byte) : State := { s with peerLine := charLevels s.cfg b ++ s.peerLine }

/-- The peer's decoder reports an event (R191). -/
def State.report (s : State) (e : Event) : State := { s with hostEvents := s.hostEvents ++ [e] }

/-! ### The end of a tick -/

/-- The counter advance of R33, the step of `now` (R32), and the passing of the level the peer drove. `start` is the
state at the start of the tick. -/
def State.endTick (start s : State) : State :=
  { s with
    counter := if start.cntRun then (s.counter + 1) % 2 ^ s.cfg.counterWidth else start.counter
    now := s.now + 1
    peerLine := s.peerLine.tail }

/-- A tick of a faulted block: only `now` advances (R141); no strobe, and the peer's level passes (log 18). -/
def State.faultedTick (s : State) : State :=
  { s with result := none, now := s.now + 1, peerLine := s.peerLine.tail }

/-- The start of a tick: no strobe yet, and the conditions of R112 are taken. -/
def State.beginTick (s : State) : State :=
  { s with result := none, atStart := { phase := s.phase, receiving := s.receiving, pend := s.pend } }

end Sys2Proof.Machine
end

