-- ==== Sys2Proof/Machine/Operands.lean ====
section
/-! DEFINITION. The result words (30_encoding.md R87). Operands need no computation: `imm8` is used as an unsigned byte
and the payload as it is (R83). -/

namespace Sys2Proof.Machine

/-- The value of `READ` on an empty buffer, -1 in 32 bits (R87, D13). -/
def emptySentinel : Word32 := 0xFFFFFFFF

/-- `zext_32(byte)` (R87). -/
def byteResult (v : Byte) : Word32 := v.zeroExtend 32

/-- `READ`'s result: the byte or the sentinel (R87, R116). -/
def readResult : Option Byte → Word32
  | some v => byteResult v
  | none => emptySentinel

/-- `zext_32({hi, lo})`, high byte first (R63, R87). -/
def pairResult (hi lo : Byte) : Word32 := (hi ++ lo : BitVec 16).zeroExtend 32

/-- `zext_32` of a count or a counter (R87); a number that 32 bits do not hold is a free value, since no rule gives its
result (log 14). -/
def natResult (n : Nat) : Word32 := if n < 2 ^ 32 then BitVec.ofNat 32 n else Config.freeWideResult n

end Sys2Proof.Machine
end

