-- ==== Sys2Proof/Machine/Framer.lean ====
section
/-! DEFINITION. The six Framing Protocol operations (42_framer.md R183 to R188). -/

namespace Sys2Proof.Machine

/-- SEND_KEY (R183). -/
def execSendKey (code : Byte) (s : State) : Host.Outcome State Fault Refusal :=
  portOperation (.sendKey code) (keyFrameBytes s.cfg code) true sendPath s

/-- SEND_LINE (R184). -/
def execSendLine (chars : List Byte) (s : State) : Host.Outcome State Fault Refusal :=
  portOperation (.sendLine chars) (lineFrameBytes s.cfg chars) true sendPath s

/-- SEND_DEBUG (R185). -/
def execSendDebug (text : List Byte) (s : State) : Host.Outcome State Fault Refusal :=
  portOperation (.sendDebug text) (debugFramesBytes s.cfg text) true sendPath s

/-- SEND_READY (R186). -/
def execSendReady (s : State) : Host.Outcome State Fault Refusal :=
  portOperation .sendReady (readyFrameBytes s.cfg) true sendPath s

/-- READ_U8 (R187): in IDLE pop a byte, or open a session and try again after it. -/
def execReadU8 (s : State) : Host.Outcome State Fault Refusal :=
  portOperation .readU8 [] true
    (fun _ s =>
      if s.atStart.phase ≠ .idle then .ok s
      else
        match s.rx.pop s.cfg.cap .rx with
        | .ok (none, _) => .ok s.sessionStart
        | .ok (some v, r) => .ok (State.complete { s with rx := r } (byteResult v))
        | .error f => .error f)
    s

/-- READ_U16 (R188): high byte first, at most one pop a tick. No rule gives it the stage SENDING (log 13). -/
def execReadU16 (s : State) : Host.Outcome State Fault Refusal :=
  portOperation .readU16 [] true
    (fun p s =>
      if s.atStart.phase ≠ .idle then .ok s
      else
        match s.rx.pop s.cfg.cap .rx with
        | .ok (none, _) => .ok s.sessionStart
        | .ok (some v, r) =>
          match p.stage with
          | .new => .ok (State.setStage { s with rx := r } p (.haveHi v))
          | .haveHi hi => .ok (State.complete { s with rx := r } (pairResult hi v))
          | .sending => .ok s
        | .error f => .error f)
    s

end Sys2Proof.Machine
end

