-- ==== Sys2Proof/Machine/Flags.lean ====
section
/-! DEFINITION. The status word (10_state.md R48). The block has no arithmetic condition codes (R27). -/

namespace Sys2Proof.Machine

/-- The status bits 0 to 6 of R48, least significant first. -/
def statusBits (s : State) : List Bool :=
  [ s.receiving,
    decide (s.phase ≠ .unconf ∧ s.phase ≠ .idle),
    decide (s.phase ≠ .unconf),
    decide (s.readyOut = .high),
    decide (s.txOut = .high),
    s.rx.full s.cfg.cap,
    s.tx.full s.cfg.cap ]

/-- The status word: bits 31:7 are 0 (R48). -/
def statusWord (s : State) : Word32 := (BitVec.ofBoolListLE (statusBits s)).setWidth 32

/-- The BUSY bit of a status word (R48, R100). -/
def statusBusy (r : Word32) : Bool := r.getLsbD 1

end Sys2Proof.Machine
end

