-- ==== Sys2Proof/Machine/Link.lean ====
section
/-! DEFINITION. The seven Bit-Level Link operations (40_link.md R114 to R120). Each is the port evaluation of one tick: it
reads `S_t` through `atStart` and the intermediate state for everything else (R112). -/

namespace Sys2Proof.Machine

/-- BEGIN (R114): holds while the phase is neither UNCONF nor IDLE; legal before configuration. -/
def execBegin (s : State) : Host.Outcome State Fault Refusal :=
  portOperation .begin_ [] false
    (fun _ s =>
      if s.atStart.phase ≠ .unconf ∧ s.atStart.phase ≠ .idle then .ok s
      else if s.atStart.phase = .unconf then .ok (State.complete { s.configurePins with phase := .idle } 0)
      else .ok (s.configurePins.complete 0))
    s

/-- AVAILABLE (R115). -/
def execAvailable (s : State) : Host.Outcome State Fault Refusal :=
  portOperation .available [] true (fun _ s => .ok (s.complete (natResult (s.rx.count s.cfg.cap)))) s

/-- READ (R116). -/
def execRead (s : State) : Host.Outcome State Fault Refusal :=
  portOperation .read [] true
    (fun _ s =>
      match s.rx.pop s.cfg.cap .rx with
      | .ok (v, r) => .ok (State.complete { s with rx := r } (readResult v))
      | .error f => .error f)
    s

/-- WRITE (R117). -/
def execWrite (b : Byte) (s : State) : Host.Outcome State Fault Refusal :=
  portOperation (.write b) [b] true sendPath s

/-- UPDATE (R118). -/
def execUpdate (s : State) : Host.Outcome State Fault Refusal :=
  portOperation .update [] true
    (fun _ s => if s.atStart.phase ≠ .idle then .ok s else .ok (s.sessionStart.complete 0)) s

/-- GET_FE (R119). -/
def execGetFe (s : State) : Host.Outcome State Fault Refusal :=
  portOperation .getFe [] true (fun _ s => .ok (s.complete (natResult s.fe))) s

/-- GET_STATUS (R120): legal before configuration. -/
def execGetStatus (s : State) : Host.Outcome State Fault Refusal :=
  portOperation .getStatus [] false (fun _ s => .ok (s.complete (statusWord s))) s

end Sys2Proof.Machine
end

