-- ==== Sys2Proof/Machine/Wire.lean ====
section
/-! DEFINITION. The six wire formats (30_encoding.md R90 to R97), executed by the peer (60_exceptions.md R235, R236): it
reads an outbound frame with the reference decoder (42_framer.md R192 to R195) and drives an inbound one on the RX pin.
They take no tick and touch no register of the block (log 9, log 21). -/

namespace Sys2Proof.Machine

/-- KEY_FRAME (R92, R192). -/
def execKeyFrame (code : Byte) (s : State) : Host.Outcome State Fault Refusal :=
  .next (s.report (.key code))

/-- LINE_FRAME (R94, R193). -/
def execLineFrame (chars : List Byte) (s : State) : Host.Outcome State Fault Refusal :=
  .next (s.report (.line chars))

/-- DEBUG_FRAME (R95, R194). -/
def execDebugFrame (text : List Byte) (s : State) : Host.Outcome State Fault Refusal :=
  .next (s.report (.debug text))

/-- READY_FRAME (R96, R195). -/
def execReadyFrame (s : State) : Host.Outcome State Fault Refusal :=
  .next (s.report .ready)

/-- COMMAND_FRAME_IN (R97): the opcode and the arguments, character after character; the block gives them no meaning. -/
def execCommandFrameIn (opcode : Byte) (args : List Byte) (s : State) : Host.Outcome State Fault Refusal :=
  .next { s with peerLine := (opcode :: args).flatMap (charLevels s.cfg) ++ s.peerLine }

/-- SERIAL_CHAR (R90). -/
def execSerialChar (b : Byte) (s : State) : Host.Outcome State Fault Refusal :=
  .next (s.driveChar b)

end Sys2Proof.Machine
end

