-- ==== Sys2Proof/Machine/Dispatch.lean ====
section
/-! DEFINITION. The meaning of every instruction, one arm a constructor. -/

namespace Sys2Proof.Machine

def exec (i : Instr) (s : State) : Host.Outcome State Fault Refusal :=
  match i with
  | .begin_ => Sys2Proof.Machine.execBegin s
  | .available => Sys2Proof.Machine.execAvailable s
  | .read => Sys2Proof.Machine.execRead s
  | .write b => Sys2Proof.Machine.execWrite b s
  | .update => Sys2Proof.Machine.execUpdate s
  | .getFe => Sys2Proof.Machine.execGetFe s
  | .getStatus => Sys2Proof.Machine.execGetStatus s
  | .sendKey code => Sys2Proof.Machine.execSendKey code s
  | .sendLine chars => Sys2Proof.Machine.execSendLine chars s
  | .sendDebug text => Sys2Proof.Machine.execSendDebug text s
  | .sendReady => Sys2Proof.Machine.execSendReady s
  | .readU8 => Sys2Proof.Machine.execReadU8 s
  | .readU16 => Sys2Proof.Machine.execReadU16 s
  | .keyFrame code => Sys2Proof.Machine.execKeyFrame code s
  | .lineFrame chars => Sys2Proof.Machine.execLineFrame chars s
  | .debugFrame text => Sys2Proof.Machine.execDebugFrame text s
  | .readyFrame => Sys2Proof.Machine.execReadyFrame s
  | .commandFrameIn opcode args => Sys2Proof.Machine.execCommandFrameIn opcode args s
  | .serialChar b => Sys2Proof.Machine.execSerialChar b s

end Sys2Proof.Machine
end

