-- ==== Sys2Proof/Machine/Sequencer.lean ====
section
/-! DEFINITION. The phase actions (41_link_sequencer.md R142 to R162), one per tick, on `S_t` and `sample(t)`. -/

namespace Sys2Proof.Machine

/-- `LISTEN` (R143, R144, R145): the timeout is tested first and then takes no sample. -/
def actListen (s : State) : State :=
  if s.windowStart + s.cfg.timeoutTicks ≤ s.now then
    { s with readyOut := .high, receiving := false, phase := .flush }
  else if s.prevRx = true ∧ s.sample = false then
    { s.enterCritical.resetCounter with prevRx := false, phase := .rxHalf }
  else { s with prevRx := s.sample }

/-- `RX_HALF` (R146, R147, R148). -/
def actRxHalf (s : State) : State :=
  if s.waitDone s.cfg.half = false then s
  else if s.sample = true then { s.exitCritical with prevRx := true, phase := .listen }
  else { s.resetCounter with rxAcc := 0, rxK := 0, phase := .rxBit }

/-- The byte `v` with bit `k` set to `b`. -/
def setBit (v : Byte) (k : Nat) (b : Bool) : Byte :=
  (v &&& ~~~(1#8 <<< k)) ||| ((BitVec.ofBool b).zeroExtend 8 <<< k)

/-- `RX_BIT` (R149): data bit `rx_k`, least significant first. -/
def actRxBit (s : State) : State :=
  if s.waitDone s.cfg.bit = false then s
  else if h : s.rxK.val < 7 then
    { s.resetCounter with rxAcc := setBit s.rxAcc s.rxK s.sample, rxK := ⟨s.rxK.val + 1, by omega⟩ }
  else { s.resetCounter with rxAcc := setBit s.rxAcc s.rxK s.sample, phase := .rxStop }

/-- `RX_STOP` (R150): count a framing error, push, restart the timeout, listen again. -/
def actRxStop (s : State) : Except Fault State :=
  if s.waitDone s.cfg.bit = false then .ok s
  else
    match s.rx.push s.cfg.cap .rx s.rxAcc with
    | .ok r =>
      .ok { s.exitCritical with
            fe := if s.sample then s.fe else (s.fe + 1) % 2 ^ s.cfg.feWidth
            rx := r
            windowStart := s.now
            prevRx := s.sample
            phase := .listen }
    | .error f => .error f

/-- `FLUSH` (R155). -/
def actFlush (s : State) : Except Fault State :=
  match s.tx.pop s.cfg.cap .tx with
  | .ok (none, _) => .ok { s with phase := .idle }
  | .ok (some v, r) => .ok (State.txStart { s with tx := r } v .flush)
  | .error f => .error f

/-- The level of bit slot `slot` of byte `b`, for a slot after the start slot (R160). -/
def slotLevel (b : Byte) (slot : Nat) : Pin :=
  if slot ≤ 8 then Pin.ofBit (b.getLsbD (slot - 1)) else .high

/-- `TX` (R160). At the end of the stop slot the peer has the whole character (log 9). -/
def actTx (s : State) : State :=
  if s.waitDone s.cfg.bit = false then s
  else if h : s.txSlot.val < 9 then
    { s.resetCounter with txSlot := ⟨s.txSlot.val + 1, by omega⟩, txOut := slotLevel s.txByte (s.txSlot.val + 1) }
  else { s.exitCritical with phase := s.txRet.phase, hostIn := s.hostIn ++ [s.txByte] }

/-- `OPSEQ` (R162). -/
def actOpseq (s : State) : State :=
  match s.pend with
  | [] => { s with phase := .idle }
  | b :: rest => State.txStart { s with pend := rest } b .opseq

/-- The action of the phase `S_t.phase` (R140, R142). -/
def phaseAction (s : State) : Except Fault State :=
  match s.phase with
  | .unconf => .ok s
  | .idle => .ok s
  | .listen => .ok (actListen s)
  | .rxHalf => .ok (actRxHalf s)
  | .rxBit => .ok (actRxBit s)
  | .rxStop => actRxStop s
  | .flush => actFlush s
  | .opseq => .ok (actOpseq s)
  | .tx => .ok (actTx s)

end Sys2Proof.Machine
end

