-- ==== Sys2Proof/Machine/Turns.lean ====
section
/-! DEFINITION. What the three agents do within one tick (60_exceptions.md R235): the peer's decoder, the peer's driver, the
block (41_link_sequencer.md R140, 40_link.md R110 to R112). -/

namespace Sys2Proof.Machine

/-- Go on with the next state, or stop as the first part stopped. -/
def andThen (o : Host.Outcome State Fault Refusal) (f : State → Host.Outcome State Fault Refusal) :
    Host.Outcome State Fault Refusal :=
  match o with
  | .next s => f s
  | .fault r => .fault r
  | .refused r => .refused r

/-- The peer's decoder takes what stands at the front of the bytes it has: a whole, right frame is run as its wire-format
row, anything else is reported, too few bytes are left for later (R191 to R196, log 9, log 10). -/
def decoderTurn (s : State) : Host.Outcome State Fault Refusal :=
  match s.hostIn with
  | [] => .next s
  | b :: rest =>
    match scanAt s.cfg b rest with
    | .wait => .next s
    | .item e left =>
      match e.frame with
      | some i => exec i { s with hostIn := left }
      | none => .next (State.report { s with hostIn := left } e)

/-- The peer's driver: a character or a command frame that is its turn is turned into levels (R90, R97). -/
def driverTurn (s : State) : Host.Outcome State Fault Refusal :=
  match s.peerLine with
  | .char b :: rest => exec (.serialChar b) { s with peerLine := rest }
  | .command opcode args :: rest => exec (.commandFrameIn opcode args) { s with peerLine := rest }
  | _ => .next s

/-- A request is presented: the checks of R88 in their order, then its evaluation (R110). Check (4) is each
operation's own (`portOperation`). -/
def presentRequest (word : Word16) (payload : List Byte) (s : State) : Host.Outcome State Fault Refusal :=
  match decode s.cfg (.request word payload) with
  | .ok i =>
    if i.wellFormed s.cfg then exec i s else .next (s.raise .badOperand word (some payload.length))
  | .error .illegalOp => .next (s.raise .illegalOp word none)
  | .error _ => .next (s.raise .badOperand word (some payload.length))

/-- The port's part of a tick (R110 to R112): the operation in progress is evaluated; a free port takes the client's
next request if it is due. `waitIdle`, once due, presents GET_STATUS at every tick until BUSY is 0 (R100, log 6, log 20). -/
def portTurn (s : State) : Host.Outcome State Fault Refusal :=
  match s.port with
  | some p => exec p.instr s
  | none =>
    match s.client with
    | [] => .next s
    | .request notBefore word payload :: rest =>
      if notBefore ≤ s.now then presentRequest word payload { s with client := rest } else .next s
    | .waitIdle notBefore :: rest =>
      if notBefore ≤ s.now then
        andThen (presentRequest (requestWord s.cfg .getStatus) [] s) (fun t =>
          if (t.result.map statusBusy) = some false then .next { t with client := rest } else .next t)
      else .next s

/-- The block's tick (R140): phase action, port, counter and `now`. A faulted block only lets `now` advance (R141). -/
def blockTurn (s : State) : Host.Outcome State Fault Refusal :=
  if s.fault ≠ none then .next s.faultedTick
  else
    match phaseAction s.beginTick with
    | .error f => .fault f
    | .ok t => andThen (portTurn t) (fun u => .next (s.endTick u))

/-- The state in which the very next tick presents the request: it is due and the port is free. -/
def State.presentNext (s : State) (word : Word16) (payload : List Byte) : State :=
  { s with client := .request s.now word payload :: s.client, port := none, fault := none }

end Sys2Proof.Machine
end

