-- ==== Sys2Proof/Machine/Step.lean ====
section
/-! DEFINITION. One tick of the whole machine, and the placing of a request for the next tick. -/

namespace Sys2Proof.Machine

/-- One tick (R140, R235): the peer's decoder, the peer's driver, the block. A configuration that breaks R10 has no run
(R226), and the refusal records it (R221). -/
def step (s : State) : Host.Outcome State Fault Refusal :=
  if s.cfg.WellFormed then andThen (decoderTurn s) (fun t => andThen (driverTurn t) blockTurn)
  else .refused (.configInvalid s.cfg)

/-- The state whose next step presents the request that a table row's bits stand for (log 6). -/
def State.withFetchWord (s : State) (nbits w : Nat) : State :=
  s.presentNext (tableRequest nbits w).1 (tableRequest nbits w).2

end Sys2Proof.Machine
end

