-- ==== Sys2Proof/Machine/Assembler.lean ====
section
/-! DEFINITION. The assembly language (30_encoding.md R99) and the expansion of the pseudo-instructions (R100), into what
the client presents (log 20). -/

namespace Sys2Proof.Machine

/-! ### Operands, each read from the front of a line -/

/-- The double quote, which opens and closes a `<bytes>` string (R99). -/
def quoteMark : Char := Char.ofNat 34

/-- The single quote around a character (R99). -/
def tickMark : Char := Char.ofNat 39

def skipSpaces (s : List Char) : List Char := s.dropWhile (fun ch => ch == ' ')

/-- The value of a digit, hexadecimal digits included. -/
def digitValue (ch : Char) : Nat :=
  if ch.toNat ≤ 57 then ch.toNat - 48 else if ch.toNat ≤ 70 then ch.toNat - 55 else ch.toNat - 87

def isDecimal (ch : Char) : Bool := decide (48 ≤ ch.toNat ∧ ch.toNat ≤ 57)

def isHex (ch : Char) : Bool :=
  isDecimal ch || decide (65 ≤ ch.toNat ∧ ch.toNat ≤ 70) || decide (97 ≤ ch.toNat ∧ ch.toNat ≤ 102)

def digitsValue (base : Nat) (ds : List Char) : Nat := ds.foldl (fun n d => n * base + digitValue d) 0

/-- A number below `bound` at the front, in the digits that `ok` admits. -/
def parseNumber (base : Nat) (ok : Char → Bool) (s : List Char) : Option (Nat × List Char) :=
  if s.takeWhile ok = [] then none else some (digitsValue base (s.takeWhile ok), s.dropWhile ok)

/-- The ASCII code of a character (R99). -/
def asciiCode (ch : Char) : Option Byte := if ch.toNat < 128 then some (BitVec.ofNat 8 ch.toNat) else none

/-- `<byte>` or `<code>` (R99): decimal, hexadecimal with `0x`, or a character in single quotes. -/
def parseByte (s : List Char) : Option (Byte × List Char) :=
  let number :=
    match s with
    | '0' :: 'x' :: r => parseNumber 16 isHex r
    | _ => parseNumber 10 isDecimal s
  match s with
  | q :: ch :: q' :: r =>
    if q = tickMark ∧ q' = tickMark then (asciiCode ch).map (fun v => (v, r))
    else number.bind (fun (n, r) => if n < 256 then some (BitVec.ofNat 8 n, r) else none)
  | _ => number.bind (fun (n, r) => if n < 256 then some (BitVec.ofNat 8 n, r) else none)

/-- The bytes of a bracketed list after its opening bracket, separated by commas; the first argument bounds their
number. -/
def parseList : Nat → List Char → Option (List Byte × List Char)
  | 0, _ => none
  | n + 1, s =>
    match parseByte (skipSpaces s) with
    | none => none
    | some (v, r) =>
      match skipSpaces r with
      | ',' :: r' => (parseList n r').map (fun (vs, r'') => (v :: vs, r''))
      | ']' :: r' => some ([v], r')
      | _ => none

/-- `<bytes>` (R99): a double-quoted string or a bracketed list. -/
def parseBytes (s : List Char) : Option (List Byte × List Char) :=
  match s with
  | [] => none
  | ch :: r =>
    if ch = quoteMark then
      match r.dropWhile (fun x => x != quoteMark) with
      | [] => none
      | _ :: r' => ((r.takeWhile (fun x => x != quoteMark)).mapM asciiCode).map (fun vs => (vs, r'))
    else if ch = '[' then
      match skipSpaces r with
      | ']' :: r' => some ([], r')
      | _ => parseList s.length r
    else none

/-- An operand that must end the line. -/
def atEnd {α : Type} (p : Option (α × List Char)) : Option α :=
  p.bind (fun (v, r) => if skipSpaces r = [] then some v else none)

/-! ### Statements -/

/-- The mnemonics without operands (R99, R100). -/
def plainMnemonics : List (String × Stmt) :=
  [ ("begin", .op .begin_), ("available", .op .available), ("read", .op .read), ("update", .op .update),
    ("getfe", .op .getFe), ("status", .op .getStatus), ("sendready", .op .sendReady), ("readu8", .op .readU8),
    ("readu16", .op .readU16), ("sendshift", .sendShift), ("sendsym", .sendSym), ("waitidle", .waitIdle) ]

/-- One statement: the lower-case mnemonic and its operands (R99, R100). -/
def parseStmt (s : List Char) : Option Stmt :=
  let word := s.takeWhile Char.isAlphanum
  let rest := skipSpaces (s.dropWhile Char.isAlphanum)
  if word = "write".toList then (atEnd (parseByte rest)).map (fun b => .op (.write b))
  else if word = "sendkey".toList then (atEnd (parseByte rest)).map (fun code => .op (.sendKey code))
  else if word = "sendline".toList then
    (atEnd (parseBytes rest)).bind (fun chars => if chars.length < 256 then some (.op (.sendLine chars)) else none)
  else if word = "senddebug".toList then (atEnd (parseBytes rest)).map (fun text => .op (.sendDebug text))
  else if word = "sendmodkey".toList then
    (parseByte rest).bind (fun (m, r) =>
      match skipSpaces r with
      | ',' :: r' => (atEnd (parseByte (skipSpaces r'))).map (fun code => .sendModKey m code)
      | _ => none)
  else if rest = [] then
    (plainMnemonics.find? (fun p => decide (p.1.toList = word))).map (fun p => p.2)
  else none

/-- What the client does for an operation presented at tick `t` or after it. -/
def requestItem (c : Config) (t : Nat) (i : Instr) : List ClientItem :=
  match encode c i with
  | .request word payload => [.request t word payload]
  | _ => []

/-- The expansion of a statement (R100) whose line carries the tick `t`. R99 gives the tick of "the request" and R100 says
nothing of a statement that is several requests. DESIGN CHOICE (log 20): `waitidle` begins its polling at tick `t`, and the
second request of `sendmodkey` is presented at the first free tick after the first. -/
def expandStmt (c : Config) (t : Nat) : Stmt → List ClientItem
  | .op i => requestItem c t i
  | .sendShift => requestItem c t (.sendKey c.keyShift)
  | .sendSym => requestItem c t (.sendKey c.keySym)
  | .sendModKey m code => requestItem c t (.sendKey m) ++ requestItem c t (.sendKey code)
  | .waitIdle => [.waitIdle t]

/-- One line: an optional tick annotation `@t:` and a statement (R99). -/
def assembleLine (c : Config) (line : String) : Option (List ClientItem) :=
  match skipSpaces line.toList with
  | '@' :: r =>
    match parseNumber 10 isDecimal r with
    | some (t, ':' :: r') => (parseStmt (skipSpaces r')).map (expandStmt c t)
    | _ => none
  | s => (parseStmt s).map (expandStmt c 0)

/-- A program, one request a line (R99). -/
def assemble (c : Config) (lines : List String) : Option (List ClientItem) :=
  (lines.mapM (assembleLine c)).map List.flatten

/-- The client's program, presented after what it had still to do. -/
def State.withProgram (s : State) (items : List ClientItem) : State := { s with client := s.client ++ items }

end Sys2Proof.Machine
end

