-- ==== Sys2Proof/Safety.lean ====
section
/-! DEFINITION. What claims speak of: the launch state, a finished run, no collision, the invariants of a run, and the
legality of a request in the words of the encoding tables. -/

namespace Sys2Proof

/-- The operations of the command port, R82. -/
def Instr.isRequest : Instr → Bool
  | .keyFrame _ => false
  | .lineFrame _ => false
  | .debugFrame _ => false
  | .readyFrame => false
  | .commandFrameIn _ _ => false
  | .serialChar _ => false
  | _ => true

end Sys2Proof

namespace Sys2Proof.Machine

/-! ### Requests -/

/-- The operation codes R82 lists. -/
def listedOps : List Byte := [0x01, 0x02, 0x03, 0x04, 0x05, 0x06, 0x07, 0x10, 0x11, 0x12, 0x13, 0x14, 0x15]

/-- The operation codes whose `imm8` column in R82 reads 0. -/
def zeroImmOps : List Byte := [0x01, 0x02, 0x03, 0x05, 0x06, 0x07, 0x12, 0x13, 0x14, 0x15]

/-- The field `op` of R80. -/
abbrev opField (w : Word16) : Byte := w.extractLsb' 8 8

/-- The field `imm8` of R80. -/
abbrev immField (w : Word16) : Byte := w.extractLsb' 0 8

/-- Checks (1) and (2) of R88. -/
abbrev ReservedRequest (w : Word16) : Prop :=
  opField w ∉ listedOps ∨ (opField w ∈ zeroImmOps ∧ immField w ≠ 0)

/-- The payload legality of R86. -/
abbrev LegalPayload (c : Config) (w : Word16) (payload : List Byte) : Prop :=
  (opField w = 0x11 → payload.length = (immField w).toNat ∧ (immField w).toNat ≤ c.maxLine) ∧
    (opField w ≠ 0x11 → opField w ≠ 0x12 → payload = [])

/-- The bytes a sending operation hands to the send path (R92, R94, R96, R117, R181); `none` for the other rows. -/
def sentBytes (c : Config) : Instr → Option (List Byte)
  | .write b => some [b]
  | .sendKey code => some [c.mKeyStart, code, c.mKeyStart ^^^ code, c.mKeyEnd]
  | .sendLine chars =>
    some ([c.mLineStart, BitVec.ofNat 8 chars.length] ++ chars ++
      [c.mLineStart ^^^ BitVec.ofNat 8 chars.length ^^^ xorAll chars, c.mLineEnd])
  | .sendDebug text => some ((debugChunks c text).flatMap (fun d => [c.mDbgStart] ++ d ++ [c.mDbgEnd]))
  | .sendReady => some [c.mPad, c.mPad, c.mReady]
  | _ => none

/-- The level of bit slot `k` of character `b` (R90). -/
def slotOf (b : Byte) (k : Nat) : Bool := if k = 0 then false else if k ≤ 8 then b.getLsbD (k - 1) else true

/-! ### Buffers -/

/-- A buffer of `cap` slots: indices in range and slots in canonical form (R30, R56). -/
abbrev Ring.Ok (cap : Nat) (r : Ring) : Prop :=
  r.head < cap ∧ r.tail < cap ∧ Memory.wf r.slots = true ∧ ∀ p ∈ r.slots, p.1 < cap

/-- The bytes a buffer holds, oldest first (R59, R60). -/
def Ring.contents (cap : Nat) (r : Ring) : List Byte :=
  (List.range (r.count cap)).map (fun j => Memory.read r.slots ((r.tail + j) % cap))

/-! ### Launch and end -/

/-- The shared launch premise (R253). -/
abbrev State.CleanIdle (s : State) : Prop :=
  s.fault = none ∧ s.port = none ∧ s.phase = .idle ∧ s.receiving = false ∧ s.txOut = .high ∧ s.readyOut = .high ∧
    s.rxPullup = true ∧ s.cntRun = true ∧ s.ie = true ∧ s.pend = [] ∧ s.rx.head = s.rx.tail ∧ s.tx.head = s.tx.tail ∧
    s.fe = 0 ∧ s.prevRx = true

/-- A finished run (R238). -/
abbrev State.Finished (s : State) : Prop :=
  s.fault = none ∧ s.port = none ∧ (s.phase = .unconf ∨ s.phase = .idle) ∧ s.client = []

/-- No collision (R258). -/
abbrev State.NoCollision (s : State) : Prop := s.txOut = .low → s.readyOut = .high

/-! ### Invariants of a run -/

/-- The widths and ranges of R21, and the canonical form of both buffers. -/
abbrev State.BuffersInRange (s : State) : Prop :=
  s.rx.Ok s.cfg.cap ∧ s.tx.Ok s.cfg.cap ∧ s.counter < 2 ^ s.cfg.counterWidth ∧ s.fe < 2 ^ s.cfg.feWidth

/-- The receive phases (R23). -/
abbrev Phase.receives (p : Phase) : Prop := p = .listen ∨ p = .rxHalf ∨ p = .rxBit ∨ p = .rxStop

/-- The phases inside a critical section (R151, R161). -/
abbrev Phase.critical (p : Phase) : Prop := p = .rxHalf ∨ p = .rxBit ∨ p = .rxStop ∨ p = .tx

/-- What the pins and `receiving` are in each phase (R24, R25, R26, R28, R160). -/
abbrev State.PinsFollowPhase (s : State) : Prop :=
  (s.receiving = true ↔ s.phase.receives) ∧
    (s.phase = .unconf →
      s.txOut = .z ∧ s.readyOut = .z ∧ s.rxPullup = false ∧ s.cntRun = false) ∧
    (s.phase ≠ .unconf → s.rxPullup = true ∧ s.cntRun = true ∧
      s.readyOut = (if s.receiving then Pin.low else Pin.high) ∧ s.txOut ≠ .z) ∧
    (s.phase ≠ .unconf → s.phase ≠ .tx → s.txOut = .high) ∧
    (s.phase = .tx → s.txOut = Pin.ofBit (slotOf s.txByte s.txSlot))

/-- The sequencer is sending the bytes of the operation on the port (R40, R41). -/
abbrev State.sendsForPort (s : State) : Prop := s.phase = .opseq ∨ (s.phase = .tx ∧ s.txRet = .opseq)

/-- What the port register holds in each phase (R41, R45): the stage SENDING exactly while the sequencer sends for the
port, `pend` empty otherwise, HAVE_HI only of READ_U16, nothing before configuration. -/
abbrev State.PortFollowsPhase (s : State) : Prop :=
  (s.sendsForPort ↔ s.port.map PortOp.stage = some .sending) ∧
    (¬ s.sendsForPort → s.pend = []) ∧
    (s.phase = .unconf → s.port = none) ∧
    (∀ p ∈ s.port, p.instr.isRequest = true ∧
      (p.stage = .sending → (sentBytes s.cfg p.instr).isSome = true) ∧
      (p.stage ≠ .new → p.stage ≠ .sending → p.instr = .readU16))

/-- `ie` is 0 in a critical section, which holds the value `prior` it had before, and `prior` outside (R36, R151, R161). -/
abbrev State.PreemptionHeld (prior : Bool) (s : State) : Prop :=
  (s.phase.critical → s.ie = false ∧ s.savedIe = prior) ∧ (¬ s.phase.critical → s.ie = prior)

/-- The peer's next turn is a plain level or nothing. -/
def plainLine : List LineItem → Bool
  | .char _ :: _ => false
  | .command _ _ :: _ => false
  | _ => true

end Sys2Proof.Machine
end

