-- ==== Sys2Proof/Certificates/Slice0/Obligations.lean ====
section
/-! DEFINITION. The statements for the provers, from the spec's numbered rules. -/

open Sys2Proof Sys2Proof.Machine

/-! ### Encoding (30_encoding.md) -/

/-- R80 to R86, R90 to R97: decoding what the encoder gives for a well-formed instruction gives the instruction back,
for every row of the table and every operand. -/
def Obligations.EncodedInstructionsDecodeToThemselves : Prop :=
  ∀ (c : Config) (i : Instr), c.WellFormed → i.wellFormed c = true → decode c (encode c i) = .ok i

/-- R80, R82, R83: a request that decodes is the one its instruction encodes to, so no two requests mean the same and
no bit of the word is dropped. -/
def Obligations.DecodedRequestsEncodeToTheirWord : Prop :=
  ∀ (c : Config) (w : Word16) (payload : List Byte) (i : Instr),
    decode c (.request w payload) = .ok i → encode c i = .request w payload

/-- R84, R85: exactly the reserved operation codes and the non-zero reserved `imm8` are rejected as illegal. -/
def Obligations.ReservedRequestsAreIllegal : Prop :=
  ∀ (c : Config) (w : Word16) (payload : List Byte),
    decode c (.request w payload) = .error .illegalOp ↔ ReservedRequest w

/-- R86: of the requests that are not reserved, exactly those with a legal payload decode to a well-formed
instruction; the others are rejected for their payload. -/
def Obligations.PayloadLegalityDecidesAcceptance : Prop :=
  ∀ (c : Config) (w : Word16) (payload : List Byte), ¬ ReservedRequest w →
    (LegalPayload c w payload ↔ ∃ i, decode c (.request w payload) = .ok i ∧ i.wellFormed c = true) ∧
      (decode c (.request w payload) = .error .badOperand ∨ ∃ i, decode c (.request w payload) = .ok i)

/-- R88: the checks on a presented request and their order; a request that passes them is run by its instruction's
meaning. -/
def Obligations.RequestChecksFollowTheirOrder : Prop :=
  ∀ (w : Word16) (payload : List Byte) (s : State), s.port = none →
    (ReservedRequest w →
      presentRequest w payload s = .next { s with port := none, fault := some ⟨.illegalOp, w, none⟩ }) ∧
    (¬ ReservedRequest w → ¬ LegalPayload s.cfg w payload →
      presentRequest w payload s =
        .next { s with port := none, fault := some ⟨.badOperand, w, some payload.length⟩ }) ∧
    (¬ ReservedRequest w → LegalPayload s.cfg w payload → s.atStart.phase = .unconf → opField w ≠ 0x01 →
      opField w ≠ 0x07 →
      presentRequest w payload s = .next { s with port := none, fault := some ⟨.notConfigured, w, none⟩ }) ∧
    (¬ ReservedRequest w → LegalPayload s.cfg w payload →
      (s.atStart.phase ≠ .unconf ∨ opField w = 0x01 ∨ opField w = 0x07) →
      ∃ i, decode s.cfg (.request w payload) = .ok i ∧ presentRequest w payload s = exec i s)

/-- R82 and the words of the vectors V20 to V29. -/
def Obligations.SampleWordsDecode : Prop :=
  decodeTableWord 16 0x0100 = some .begin_ ∧ decodeTableWord 16 0x0441 = some (.write 0x41) ∧
    decodeTableWord 16 0x1010 = some (.sendKey 0x10) ∧ decodeTableWord 32 0x69681102 = some (.sendLine [0x68, 0x69]) ∧
    decodeTableWord 16 0x1500 = some .readU16 ∧ decodeTableWord 16 0x0800 = none ∧ decodeTableWord 16 0x0301 = none

/-! ### Buffers (20_memory.md) -/

/-- R57: a slot written reads back as written, and every other slot as before. -/
def Obligations.SlotReadsBackWhatWasWritten : Prop :=
  ∀ (m : Memory) (i a : Nat) (v : Byte), m.wf = true →
    (m.write i v).read a = if a = i then v else m.read a

/-- R58, R59: a push onto a full buffer changes nothing; onto any other it stores the byte in slot `head`, leaves every
other slot and `tail`, and moves `head` on. A pop of an empty buffer answers empty and changes nothing; of any other it
answers the byte in slot `tail` and moves `tail` on. -/
def Obligations.PushAndPopFollowTheIndices : Prop :=
  ∀ (cap : Nat) (b : Buffer) (r : Ring), r.Ok cap →
    (∀ v, ∃ r', r.push cap b v = .ok r' ∧ r'.tail = r.tail ∧
      (if (r.head + 1) % cap = r.tail then r' = r
       else r'.head = (r.head + 1) % cap ∧
        ∀ a, r'.slots.read a = if a = r.head then v else r.slots.read a)) ∧
    r.pop cap b =
      if r.head = r.tail then .ok (none, r)
      else .ok (some (r.slots.read r.tail), { r with tail := (r.tail + 1) % cap })

/-- R60: the count is `(head - tail) mod CAP`, below `CAP`, and 0 exactly when the buffer is empty. -/
def Obligations.CountIsTheIndexDifference : Prop :=
  ∀ (cap : Nat) (r : Ring), 2 ≤ cap → r.head < cap → r.tail < cap →
    r.count cap ≤ cap - 1 ∧ (r.tail + r.count cap) % cap = r.head ∧ (r.count cap = 0 ↔ r.head = r.tail)

/-- R61: bytes leave a buffer in the order they were pushed, and a dropped byte is never popped. -/
def Obligations.BuffersAreFirstInFirstOut : Prop :=
  ∀ (cap : Nat) (b : Buffer) (r : Ring), 2 ≤ cap → r.Ok cap →
    (∀ v, ∃ r', r.push cap b v = .ok r' ∧ r'.Ok cap ∧
      r'.contents cap = if (r.contents cap).length < cap - 1 then r.contents cap ++ [v] else r.contents cap) ∧
    (∃ v r', r.pop cap b = .ok (v, r') ∧ r'.Ok cap ∧
      (match v with | none => r.contents cap = [] ∧ r' = r | some v => r.contents cap = v :: r'.contents cap))

/-- R61, 90_conflicts.md C1: pushes onto an empty buffer that is not read keep exactly the first `CAP - 1` bytes. -/
def Obligations.OverfullBufferKeepsTheFirstBytes : Prop :=
  ∀ (cap : Nat) (b : Buffer) (r : Ring) (bytes : List Byte), 2 ≤ cap → r.Ok cap → r.head = r.tail →
    ∃ r', r.pushAll cap b bytes = .ok r' ∧ r'.contents cap = bytes.take (cap - 1)

/-! ### Frames and the reference decoder (42_framer.md) -/

/-- R181: the debug text is cut into consecutive chunks, all but the last of exactly `MAX_DEBUG_PAYLOAD` bytes, none
empty, whose frames take two bytes more each. -/
def Obligations.DebugChunksCutTheText : Prop :=
  ∀ (c : Config) (text : List Byte), c.WellFormed →
    (debugChunks c text).flatten = text ∧ (∀ d ∈ debugChunks c text, d ≠ [] ∧ d.length ≤ c.maxDebugPayload) ∧
      (∀ d ∈ (debugChunks c text).dropLast, d.length = c.maxDebugPayload) ∧
      (debugFramesBytes c text).length =
        text.length + 2 * ((text.length + c.maxDebugPayload - 1) / c.maxDebugPayload)

/-- R192: what the reference decoder makes of a stream that begins with the key start marker. -/
def Obligations.DecoderReadsKeyFrames : Prop :=
  ∀ (c : Config), c.WellFormed →
    (∀ s : List Byte, s.length < 3 → hostDecode c (c.mKeyStart :: s) = [.incomplete (c.mKeyStart :: s)]) ∧
    (∀ (code x e : Byte) (rest : List Byte),
      hostDecode c (c.mKeyStart :: code :: x :: e :: rest) =
        if e ≠ c.mKeyEnd then .badEnd .key :: hostDecode c (code :: x :: e :: rest)
        else if x ≠ c.mKeyStart ^^^ code then .keyBadChk code x :: hostDecode c rest
        else .key code :: hostDecode c rest)

/-- R193: what the reference decoder makes of a stream that begins with the line start marker. -/
def Obligations.DecoderReadsLineFrames : Prop :=
  ∀ (c : Config), c.WellFormed →
    hostDecode c [c.mLineStart] = [.incomplete [c.mLineStart]] ∧
    (∀ (len : Byte) (s : List Byte), c.maxLine < len.toNat →
      hostDecode c (c.mLineStart :: len :: s) = .lineBadLen len :: hostDecode c (len :: s)) ∧
    (∀ (len : Byte) (s : List Byte), len.toNat ≤ c.maxLine → s.length < len.toNat + 2 →
      hostDecode c (c.mLineStart :: len :: s) = [.incomplete (c.mLineStart :: len :: s)]) ∧
    (∀ (len x e : Byte) (chars rest : List Byte), len.toNat ≤ c.maxLine → chars.length = len.toNat →
      hostDecode c (c.mLineStart :: len :: (chars ++ x :: e :: rest)) =
        if e ≠ c.mLineEnd then .badEnd .line :: hostDecode c (len :: (chars ++ x :: e :: rest))
        else if x ≠ c.mLineStart ^^^ len ^^^ xorAll chars then .lineBadChk chars x :: hostDecode c rest
        else .line chars :: hostDecode c rest)

/-- R194: what the reference decoder makes of a stream that begins with the debug start marker. -/
def Obligations.DecoderReadsDebugFrames : Prop :=
  ∀ (c : Config), c.WellFormed →
    (∀ text rest : List Byte, c.mDbgEnd ∉ text → text.length ≤ c.maxDebugPayload →
      hostDecode c (c.mDbgStart :: (text ++ c.mDbgEnd :: rest)) = .debug text :: hostDecode c rest) ∧
    (∀ s : List Byte, c.mDbgEnd ∉ s.take (c.maxDebugPayload + 1) →
      hostDecode c (c.mDbgStart :: s) =
        if s.length < c.maxDebugPayload + 1 then [.incomplete (c.mDbgStart :: s)]
        else .badEnd .debug :: hostDecode c s)

/-- R195 and R196: the ready frame, and any byte that begins no frame. -/
def Obligations.DecoderReadsReadyFramesAndSkips : Prop :=
  ∀ (c : Config), c.WellFormed →
    (∀ rest : List Byte, hostDecode c (c.mPad :: c.mPad :: c.mReady :: rest) = .ready :: hostDecode c rest) ∧
    hostDecode c [c.mPad] = [.incomplete [c.mPad]] ∧ hostDecode c [c.mPad, c.mPad] = [.incomplete [c.mPad, c.mPad]] ∧
    (∀ (b : Byte) (s : List Byte), b ≠ c.mPad →
      hostDecode c (c.mPad :: b :: s) = .skip c.mPad :: hostDecode c (b :: s)) ∧
    (∀ (e : Byte) (s : List Byte), e ≠ c.mReady →
      hostDecode c (c.mPad :: c.mPad :: e :: s) = .skip c.mPad :: hostDecode c (c.mPad :: e :: s)) ∧
    (∀ (b : Byte) (s : List Byte),
      b ≠ c.mKeyStart → b ≠ c.mLineStart → b ≠ c.mDbgStart → b ≠ c.mPad →
      hostDecode c (b :: s) = .skip b :: hostDecode c s)

/-- R197: the frames of the builders decode to their events, whatever follows them. -/
def Obligations.FramesDecodeToTheirEvents : Prop :=
  ∀ (c : Config) (rest : List Byte), c.WellFormed →
    (∀ code, hostDecode c (keyFrameBytes c code ++ rest) = .key code :: hostDecode c rest) ∧
    (∀ chars : List Byte, chars.length ≤ c.maxLine →
      hostDecode c (lineFrameBytes c chars ++ rest) = .line chars :: hostDecode c rest) ∧
    hostDecode c (readyFrameBytes c ++ rest) = .ready :: hostDecode c rest ∧
    (∀ text : List Byte, c.mDbgEnd ∉ text →
      hostDecode c (debugFramesBytes c text ++ rest) = (debugChunks c text).map .debug ++ hostDecode c rest ∧
        (debugChunks c text).flatten = text)

/-- R191 on a growing stream (the model's choice, log 9 and log 10): a turn of the peer's decoder keeps the decoding of
everything it has been sent, and what it has reported stays right whatever is sent later. -/
def Obligations.DecoderTurnKeepsTheDecodedStream : Prop :=
  ∀ (s : State), s.cfg.WellFormed →
    ∃ t, decoderTurn s = .next t ∧
      ∀ later : List Byte, t.hostEvents ++ hostDecode t.cfg (t.hostIn ++ later) =
        s.hostEvents ++ hostDecode s.cfg (s.hostIn ++ later)

/-! ### Link operations (40_link.md) -/

/-- R114: BEGIN, just accepted or held before, drives the pins in UNCONF or IDLE, starts the counter and completes; in
any other phase it holds. -/
def Obligations.BeginConfiguresThePins : Prop :=
  ∀ (s : State), s.port = none ∨ s.port = some ⟨.begin_, [], .new⟩ →
    (s.atStart.phase = .unconf →
      exec .begin_ s = .next { s with txOut := .high, readyOut := .high, rxPullup := true, cntRun := true,
                                      phase := .idle, port := none, result := some 0 }) ∧
    (s.atStart.phase = .idle →
      exec .begin_ s = .next { s with txOut := .high, readyOut := .high, rxPullup := true, cntRun := true,
                                      port := none, result := some 0 }) ∧
    (s.atStart.phase ≠ .unconf → s.atStart.phase ≠ .idle →
      exec .begin_ s = .next { s with port := some ⟨.begin_, [], .new⟩ })

/-- R115: AVAILABLE completes in any configured phase, changes nothing but the result, and returns the RX count whenever
32 bits hold it. No rule gives the result of a larger count, which the model leaves free (DESIGN CHOICE, log 14). -/
def Obligations.AvailableReturnsTheCount : Prop :=
  ∀ (s : State), s.port = none → s.atStart.phase ≠ .unconf →
    ∃ r : Word32, exec .available s = .next { s with port := none, result := some r } ∧
      (s.rx.count s.cfg.cap < 2 ^ 32 → r.toNat = s.rx.count s.cfg.cap)

/-- R116: READ pops the oldest RX byte, or returns -1 and changes nothing when there is none. -/
def Obligations.ReadReturnsTheOldestByteOrTheSentinel : Prop :=
  ∀ (s : State), s.port = none → s.atStart.phase ≠ .unconf → s.rx.Ok s.cfg.cap →
    exec .read s =
      if s.rx.head = s.rx.tail then .next { s with port := none, result := some 0xFFFFFFFF }
      else .next { s with
        port := none
        result := some ((s.rx.slots.read s.rx.tail).setWidth 32)
        rx := { s.rx with tail := (s.rx.tail + 1) % s.cfg.cap } }

/-- R117, R122, R182: a sending operation in stage NEW while `receiving = 1` pushes its bytes onto the TX buffer, in order
and dropping those that do not fit, and completes; the slots it stores to are the free ones from `tx_head` on, and
nothing else changes. -/
def Obligations.SendsDeferWhileReceiving : Prop :=
  ∀ (s : State) (i : Instr) (bytes : List Byte), sentBytes s.cfg i = some bytes → s.cfg.WellFormed →
    s.port = none ∨ s.port = some ⟨i, bytes, .new⟩ → s.atStart.phase ≠ .unconf → s.atStart.receiving = true →
    s.tx.Ok s.cfg.cap →
    ∃ r : Ring, exec i s = .next { s with port := none, result := some 0, tx := r } ∧ r.Ok s.cfg.cap ∧
      r.tail = s.tx.tail ∧
      r.head = (s.tx.head + min bytes.length (s.cfg.cap - 1 - s.tx.count s.cfg.cap)) % s.cfg.cap ∧
      (∀ j, j < min bytes.length (s.cfg.cap - 1 - s.tx.count s.cfg.cap) →
        bytes[j]? = some (r.slots.read ((s.tx.head + j) % s.cfg.cap))) ∧
      (∀ a, (∀ j, j < min bytes.length (s.cfg.cap - 1 - s.tx.count s.cfg.cap) →
          a ≠ (s.tx.head + j) % s.cfg.cap) →
        r.slots.read a = s.tx.slots.read a)

/-- R117, R123, R182: a sending operation in stage NEW in IDLE hands its bytes to the sequencer and goes on in stage
SENDING; in any other configured phase with `receiving = 0` it holds. -/
def Obligations.SendsStartFromIdleOrHold : Prop :=
  ∀ (s : State) (i : Instr) (bytes : List Byte), sentBytes s.cfg i = some bytes →
    s.port = none ∨ s.port = some ⟨i, bytes, .new⟩ → s.atStart.phase ≠ .unconf → s.atStart.receiving = false →
    exec i s =
      if s.atStart.phase = .idle then
        .next { s with pend := bytes, phase := .opseq, port := some ⟨i, bytes, .sending⟩ }
      else .next { s with port := some ⟨i, bytes, .new⟩ }

/-- R117, R182: a sending operation in stage SENDING completes at the tick whose phase is OPSEQ with nothing left to
send, and waits at every other tick. -/
def Obligations.SendsCompleteWhenAllBytesAreSent : Prop :=
  ∀ (s : State) (i : Instr) (bytes : List Byte), (sentBytes s.cfg i).isSome = true →
    s.port = some ⟨i, bytes, .sending⟩ →
    exec i s =
      if s.atStart.phase = .opseq ∧ s.atStart.pend = [] then .next { s with port := none, result := some 0 }
      else .next s

/-- R118, R121: UPDATE, just accepted or held before, opens a receive window in IDLE and completes; in any other
configured phase it holds. -/
def Obligations.UpdateOpensAReceiveWindow : Prop :=
  ∀ (s : State), s.port = none ∨ s.port = some ⟨.update, [], .new⟩ →
    (s.atStart.phase = .idle →
      exec .update s = .next { s with readyOut := .low, receiving := true, windowStart := s.now, prevRx := true,
                                      phase := .listen, port := none, result := some 0 }) ∧
    (s.atStart.phase ≠ .unconf → s.atStart.phase ≠ .idle →
      exec .update s = .next { s with port := some ⟨.update, [], .new⟩ })

/-- R119: GET_FE returns the framing-error counter and does not clear it. -/
def Obligations.GetFeReturnsTheCounter : Prop :=
  ∀ (s : State), s.port = none → s.atStart.phase ≠ .unconf → s.cfg.WellFormed → s.fe < 2 ^ s.cfg.feWidth →
    ∃ r : Word32, exec .getFe s = .next { s with port := none, result := some r } ∧ r.toNat = s.fe

/-- R120, R48: GET_STATUS returns the status word in every phase, before configuration too. -/
def Obligations.GetStatusReturnsTheStatusBits : Prop :=
  ∀ (s : State), s.port = none →
    ∃ r : Word32, exec .getStatus s = .next { s with port := none, result := some r } ∧
      r.getLsbD 0 = s.receiving ∧
      (r.getLsbD 1 = true ↔ s.phase ≠ .unconf ∧ s.phase ≠ .idle) ∧
      (r.getLsbD 2 = true ↔ s.phase ≠ .unconf) ∧
      (r.getLsbD 3 = true ↔ s.readyOut = .high) ∧
      (r.getLsbD 4 = true ↔ s.txOut = .high) ∧
      (r.getLsbD 5 = true ↔ (s.rx.head + 1) % s.cfg.cap = s.rx.tail) ∧
      (r.getLsbD 6 = true ↔ (s.tx.head + 1) % s.cfg.cap = s.tx.tail) ∧
      (∀ k, 7 ≤ k → r.getLsbD k = false)

/-- R221 code 1: before BEGIN every request but BEGIN and GET_STATUS takes the fault NOT_CONFIGURED, which records the
request word and changes nothing else. -/
def Obligations.UnconfiguredRequestsRaiseNotConfigured : Prop :=
  ∀ (s : State) (i : Instr) (w : Word16) (payload : List Byte), encode s.cfg i = .request w payload →
    i ≠ .begin_ → i ≠ .getStatus → s.port = none → s.atStart.phase = .unconf →
    exec i s = .next { s with port := none, fault := some ⟨.notConfigured, w, none⟩ }

/-! ### Read primitives (42_framer.md) -/

/-- R187: READ_U8 in IDLE returns the oldest byte, or opens a session and stays on the port; in any other configured
phase it holds. -/
def Obligations.ReadU8ReturnsAByteOrOpensASession : Prop :=
  ∀ (s : State), s.port = none ∨ s.port = some ⟨.readU8, [], .new⟩ → s.atStart.phase ≠ .unconf → s.rx.Ok s.cfg.cap →
    exec .readU8 s =
      if s.atStart.phase ≠ .idle then .next { s with port := some ⟨.readU8, [], .new⟩ }
      else if s.rx.head = s.rx.tail then
        .next { s with readyOut := .low, receiving := true, windowStart := s.now, prevRx := true, phase := .listen,
                       port := some ⟨.readU8, [], .new⟩ }
      else .next { s with
        port := none
        result := some ((s.rx.slots.read s.rx.tail).setWidth 32)
        rx := { s.rx with tail := (s.rx.tail + 1) % s.cfg.cap } }

/-- R188: READ_U16 in IDLE takes one byte a tick, the high byte first, and completes with the second; with no byte it
opens a session; in any other configured phase it holds. -/
def Obligations.ReadU16ReadsTheHighByteFirst : Prop :=
  ∀ (s : State) (stage : Stage), s.port = some ⟨.readU16, [], stage⟩ ∨ (s.port = none ∧ stage = .new) →
    stage ≠ .sending → s.atStart.phase ≠ .unconf → s.rx.Ok s.cfg.cap →
    exec .readU16 s =
      if s.atStart.phase ≠ .idle then .next { s with port := some ⟨.readU16, [], stage⟩ }
      else if s.rx.head = s.rx.tail then
        .next { s with readyOut := .low, receiving := true, windowStart := s.now, prevRx := true, phase := .listen,
                       port := some ⟨.readU16, [], stage⟩ }
      else
        match stage with
        | .haveHi hi => .next { s with
            port := none
            result := some (hi.setWidth 32 <<< 8 ||| (s.rx.slots.read s.rx.tail).setWidth 32)
            rx := { s.rx with tail := (s.rx.tail + 1) % s.cfg.cap } }
        | _ => .next { s with
            port := some ⟨.readU16, [], .haveHi (s.rx.slots.read s.rx.tail)⟩
            rx := { s.rx with tail := (s.rx.tail + 1) % s.cfg.cap } }

/-- R189: a step never abandons a read primitive in progress: it stays on the port or completes with a result. -/
def Obligations.BlockingReadsAreNeverAbandoned : Prop :=
  ∀ (s t : State) (p : PortOp), s.fault = none → s.port = some p → (p.instr = .readU8 ∨ p.instr = .readU16) →
    step s = .next t →
    t.fault = none ∧
      ((∃ q, t.port = some q ∧ q.instr = p.instr ∧ t.result = none) ∨ (t.port = none ∧ t.result.isSome = true))

/-! ### Wire formats (30_encoding.md R90 to R97; the peer as their agent is the model's choice, log 9 and log 21) -/

/-- R92, R94, R95, R96 read by R192 to R195 (log 9): each outbound frame is reported by the peer's decoder as its event,
and nothing else changes. -/
def Obligations.OutboundFramesAreReported : Prop :=
  ∀ (s : State) (code : Byte) (bytes : List Byte),
    exec (.keyFrame code) s = .next { s with hostEvents := s.hostEvents ++ [.key code] } ∧
    exec (.lineFrame bytes) s = .next { s with hostEvents := s.hostEvents ++ [.line bytes] } ∧
    exec (.debugFrame bytes) s = .next { s with hostEvents := s.hostEvents ++ [.debug bytes] } ∧
    exec .readyFrame s = .next { s with hostEvents := s.hostEvents ++ [.ready] }

/-- R90 on the RX line (log 21): a character takes ten slots of `BIT` ticks, start 0, the data bits least significant
first, stop 1, then the line goes on as it was to; nothing else changes. -/
def Obligations.SerialCharDrivesTenSlots : Prop :=
  ∀ (s : State) (b : Byte),
    ∃ levels : List LineItem, exec (.serialChar b) s = .next { s with peerLine := levels } ∧
      (∀ j, j < 10 * s.cfg.bit → levels[j]? = some (.level (Pin.ofBit (slotOf b (j / s.cfg.bit))))) ∧
      (∀ j, levels[10 * s.cfg.bit + j]? = s.peerLine[j]?)

/-- R97, R90 on the RX line (log 21): a command frame is its opcode and its arguments as characters one after another,
with no meaning given to any of them; nothing else changes. -/
def Obligations.CommandFrameDrivesItsBytes : Prop :=
  ∀ (s : State) (opcode : Byte) (args : List Byte),
    ∃ levels : List LineItem, exec (.commandFrameIn opcode args) s = .next { s with peerLine := levels } ∧
      (∀ m j b, (opcode :: args)[m]? = some b → j < 10 * s.cfg.bit →
        levels[m * (10 * s.cfg.bit) + j]? = some (.level (Pin.ofBit (slotOf b (j / s.cfg.bit))))) ∧
      (∀ j, levels[(args.length + 1) * (10 * s.cfg.bit) + j]? = s.peerLine[j]?)

/-! ### The sequencer (41_link_sequencer.md) -/

/-- R142: in UNCONF and IDLE the phase action is empty. -/
def Obligations.IdlePhasesTakeNoAction : Prop :=
  ∀ (s : State), s.phase = .unconf ∨ s.phase = .idle → phaseAction s = .ok s

/-- R143, R144, R145: LISTEN closes the window at the timeout without sampling; before it, a falling edge starts a byte,
and any other sample is remembered. -/
def Obligations.ListenTestsTheTimeoutThenTheEdge : Prop :=
  ∀ (s : State), s.phase = .listen →
    phaseAction s = .ok (
      if s.windowStart + s.cfg.timeoutTicks ≤ s.now then
        { s with readyOut := .high, receiving := false, phase := .flush }
      else if s.prevRx = true ∧ s.sample = false then
        { s with savedIe := s.ie, ie := false, counter := 0, prevRx := false, phase := .rxHalf }
      else { s with prevRx := s.sample })

/-- R146, R147, R148: half a bit period after the edge the line is checked again: high is a false start, low confirms
the start bit. -/
def Obligations.HalfBitRecheckRejectsFalseStarts : Prop :=
  ∀ (s : State), s.phase = .rxHalf →
    phaseAction s = .ok (
      if s.counter < s.cfg.half then s
      else if s.sample = true then { s with ie := s.savedIe, prevRx := true, phase := .listen }
      else { s with rxAcc := 0, rxK := 0, counter := 0, phase := .rxBit })

/-- R149: a data bit is sampled one bit period after the last, into bit `rx_k` of the byte; the eighth leads to the stop
bit. -/
def Obligations.DataBitsAreAccumulatedInOrder : Prop :=
  ∀ (s : State), s.phase = .rxBit →
    (s.counter < s.cfg.bit → phaseAction s = .ok s) ∧
    (s.cfg.bit ≤ s.counter →
      ∃ (acc : Byte) (k : Fin 8) (ph : Phase),
        phaseAction s = .ok { s with rxAcc := acc, rxK := k, counter := 0, phase := ph } ∧
        (∀ j, j < 8 → acc.getLsbD j = if j = s.rxK.val then s.sample else s.rxAcc.getLsbD j) ∧
        (if s.rxK.val = 7 then k = s.rxK ∧ ph = .rxStop else k.val = s.rxK.val + 1 ∧ ph = .rxBit))

/-- R150: at the stop bit the byte is pushed or dropped, a low stop bit is counted modulo `2 ^ FE_WIDTH`, the timeout
restarts and the block listens again. -/
def Obligations.StopBitPushesTheByte : Prop :=
  ∀ (s : State), s.phase = .rxStop → s.rx.Ok s.cfg.cap →
    (s.counter < s.cfg.bit → phaseAction s = .ok s) ∧
    (s.cfg.bit ≤ s.counter →
      phaseAction s = .ok { s with
        fe := if s.sample = false then (s.fe + 1) % 2 ^ s.cfg.feWidth else s.fe
        rx := if (s.rx.head + 1) % s.cfg.cap = s.rx.tail then s.rx
              else { s.rx with slots := s.rx.slots.write s.rx.head s.rxAcc, head := (s.rx.head + 1) % s.cfg.cap }
        windowStart := s.now
        ie := s.savedIe
        prevRx := s.sample
        phase := .listen })

/-- R155, R162, R159: FLUSH takes the oldest deferred byte and OPSEQ the next pending one, and start its start bit;
with none left the phase is IDLE. -/
def Obligations.FlushAndOpseqStartTheNextByte : Prop :=
  ∀ (s : State),
    (s.phase = .flush → s.tx.Ok s.cfg.cap →
      phaseAction s = .ok (
        if s.tx.head = s.tx.tail then { s with phase := .idle }
        else { s with
          tx := { s.tx with tail := (s.tx.tail + 1) % s.cfg.cap }
          savedIe := s.ie, ie := false, txOut := .low, txByte := s.tx.slots.read s.tx.tail, txSlot := 0
          txRet := .flush, counter := 0, phase := .tx })) ∧
    (s.phase = .opseq → s.pend = [] → phaseAction s = .ok { s with phase := .idle }) ∧
    (∀ b rest, s.phase = .opseq → s.pend = b :: rest →
      phaseAction s = .ok { s with
        pend := rest, savedIe := s.ie, ie := false, txOut := .low, txByte := b, txSlot := 0
        txRet := .opseq, counter := 0, phase := .tx })

/-- R160: each slot is held for one bit period; then the next data bit or the stop bit is driven, and after the stop
bit the preemption state is restored and the phase `tx_ret` resumes (the peer then has the byte, log 9). -/
def Obligations.TxDrivesTheSlotsInTurn : Prop :=
  ∀ (s : State), s.phase = .tx →
    (s.counter < s.cfg.bit → phaseAction s = .ok s) ∧
    (s.cfg.bit ≤ s.counter → s.txSlot.val < 9 →
      ∃ k : Fin 10, k.val = s.txSlot.val + 1 ∧
        phaseAction s = .ok { s with
          txSlot := k
          txOut := if k.val ≤ 8 then Pin.ofBit (s.txByte.getLsbD (k.val - 1)) else .high
          counter := 0 }) ∧
    (s.cfg.bit ≤ s.counter → s.txSlot.val = 9 →
      phaseAction s = .ok { s with
        ie := s.savedIe
        phase := if s.txRet = .flush then .flush else .opseq
        hostIn := s.hostIn ++ [s.txByte] })

/-! ### The step (40_link.md, 41_link_sequencer.md, 60_exceptions.md) -/

/-- R110, R112, R140: when the client's next request is due, the port is free and the request decodes to the well-formed
instruction `i`, the step is `exec i` on the state the phase action leaves, then the end of the tick. -/
def Obligations.StepRunsTheDecodedRequest : Prop :=
  ∀ (s s1 s2 u : State) (i : Instr) (notBefore : Nat) (w : Word16) (payload : List Byte) (rest : List ClientItem),
    s.cfg.WellFormed → decoderTurn s = .next s1 → driverTurn s1 = .next s2 → s2.fault = none →
    phaseAction s2.beginTick = .ok u → u.port = none → u.client = .request notBefore w payload :: rest →
    notBefore ≤ u.now → decode u.cfg (.request w payload) = .ok i → i.wellFormed u.cfg = true →
    step s = andThen (exec i { u with client := rest }) (fun v => .next (s2.endTick v))

/-- R110, R112: an operation in progress is run at every following tick, and with a free port and a silent client the
tick is the phase action alone. -/
def Obligations.StepRunsTheOperationInProgress : Prop :=
  ∀ (s s1 s2 u : State),
    s.cfg.WellFormed → decoderTurn s = .next s1 → driverTurn s1 = .next s2 → s2.fault = none →
    phaseAction s2.beginTick = .ok u →
    (∀ p, u.port = some p → step s = andThen (exec p.instr u) (fun v => .next (s2.endTick v))) ∧
    (u.port = none → u.client = [] → step s = .next (s2.endTick u))

/-- R191, R90, R97 (log 9, log 21): the peer's turns run the wire-format rows: the whole frame at the front of the bytes
it was sent, and the character or command frame it is to drive. -/
def Obligations.PeerTurnsRunTheWireRows : Prop :=
  ∀ (s : State) (i : Instr) (bytes rest : List Byte) (line : List LineItem), s.cfg.WellFormed →
    (i.wellFormed s.cfg = true → encode s.cfg i = .outbound bytes → s.hostIn = bytes ++ rest →
      decoderTurn s = exec i { s with hostIn := rest }) ∧
    (∀ b, s.peerLine = .char b :: line → driverTurn s = exec (.serialChar b) { s with peerLine := line }) ∧
    (∀ op args, s.peerLine = .command op args :: line →
      driverTurn s = exec (.commandFrameIn op args) { s with peerLine := line })

/-- R32, R33: every tick advances `now` by one; with the counter running and no fault the counter goes on by one from
what the phase action left (0 where it restarted the counter), modulo `2 ^ W`; else it holds. -/
def Obligations.TicksAdvanceNowAndTheCounter : Prop :=
  ∀ (s t : State), step s = .next t →
    t.now = s.now + 1 ∧ t.cfg = s.cfg ∧
      (s.cntRun = false ∨ s.fault ≠ none → t.counter = s.counter) ∧
      (s.cntRun = true → s.fault = none →
        ∃ s1 s2 u, decoderTurn s = .next s1 ∧ driverTurn s1 = .next s2 ∧ phaseAction s2.beginTick = .ok u ∧
          (u.counter = s.counter ∨ u.counter = 0) ∧ t.counter = (u.counter + 1) % 2 ^ s.cfg.counterWidth)

/-- R141, R223: a faulted block takes no action at any tick: every register of it keeps its value, the fault record
too, and only `now` advances. -/
def Obligations.FaultedBlockOnlyLetsNowAdvance : Prop :=
  ∀ (s : State), s.cfg.WellFormed → s.fault ≠ none →
    ∃ (line : List LineItem) (hostIn : List Byte) (events : List Event),
      step s = .next { s with now := s.now + 1, result := none, peerLine := line, hostIn := hostIn, hostEvents := events }

/-- R222, R224: a refused request at tick `t` changes nothing but the fault record: the phase action, the counter and
`now` of the tick are as without it, no strobe is driven and the port stays free. -/
def Obligations.RefusedRequestsLeaveOnlyTheFaultRecord : Prop :=
  ∀ (s u : State) (notBefore : Nat) (w : Word16) (payload : List Byte) (rest : List ClientItem),
    s.fault = none → s.port = none → s.client = .request notBefore w payload :: rest → notBefore ≤ s.now →
    phaseAction s.beginTick = .ok u → (ReservedRequest w ∨ ¬ LegalPayload s.cfg w payload) →
    ∃ f : FaultRecord, f.word = w ∧
      (f.code = if ReservedRequest w then FaultCode.illegalOp else FaultCode.badOperand) ∧
      (f.len = if ReservedRequest w then none else some payload.length) ∧
      blockTurn s = .next { u with
        fault := some f, port := none, result := none, client := rest, peerLine := s.peerLine.tail, now := s.now + 1
        counter := if s.cntRun then (u.counter + 1) % 2 ^ s.cfg.counterWidth else s.counter }

/-! ### Reset (10_state.md R49, 70_reset_and_hazards.md) -/

/-- R49: the reset values the spec gives. -/
def Obligations.ResetStateHasTheGivenValues : Prop :=
  State.reset.phase = .unconf ∧ State.reset.txOut = .z ∧ State.reset.readyOut = .z ∧ State.reset.rxPullup = false ∧
    State.reset.cntRun = false ∧ State.reset.ie = true ∧ State.reset.receiving = false ∧ State.reset.fe = 0 ∧
    State.reset.rx.head = 0 ∧ State.reset.rx.tail = 0 ∧ State.reset.tx.head = 0 ∧ State.reset.tx.tail = 0 ∧
    State.reset.windowStart = 0 ∧ State.reset.prevRx = true ∧ State.reset.pend = [] ∧ State.reset.port = none ∧
    State.reset.fault = none ∧ State.reset.now = 0

/-- R253: whatever the configuration and the values R49 leaves unspecified, the tick that runs BEGIN from the reset
values leads to the launch state. -/
def Obligations.BeginFromResetReachesCleanIdle : Prop :=
  ∀ (s : State), s.cfg.WellFormed → s.phase = .unconf → s.receiving = false → s.ie = true → s.fe = 0 →
    s.rx.head = 0 → s.rx.tail = 0 → s.tx.head = 0 → s.tx.tail = 0 → s.prevRx = true → s.pend = [] →
    s.port = none → s.fault = none →
    ∃ t, step (s.withFetchWord 16 0x0100) = .next t ∧ t.CleanIdle ∧ t.result = some 0 ∧ t.now = s.now + 1

/-! ### Invariants -/

/-- R21, R30, R31, R29: every step keeps the buffers in canonical form with their indices in range, and the two
counters within their widths. -/
def Obligations.StepKeepsBuffersInRange : Prop :=
  ∀ (s t : State), s.cfg.WellFormed → s.BuffersInRange → step s = .next t → t.BuffersInRange

/-- R24, R25, R26, R28, R160: every step keeps what the pins and `receiving` are in each phase, the TX pin at the level
of its bit slot included. -/
def Obligations.StepKeepsPinsFollowingThePhase : Prop :=
  ∀ (s t : State), s.PinsFollowPhase → step s = .next t → t.PinsFollowPhase

/-- R41, R45, R156: every step keeps the port register and `pend` in agreement with the phase. -/
def Obligations.StepKeepsThePortFollowingThePhase : Prop :=
  ∀ (s t : State), s.PortFollowsPhase → step s = .next t → t.PortFollowsPhase

/-- R36, R151, R161: for either prior value of `ie`, every step keeps it 0 in the critical sections and at that value
outside them. -/
def Obligations.StepKeepsThePreemptionState : Prop :=
  ∀ (prior : Bool) (s t : State), s.PreemptionHeld prior → step s = .next t → t.PreemptionHeld prior

/-- R49: the reset state meets the invariants. -/
def Obligations.ResetMeetsTheInvariants : Prop :=
  State.reset.cfg.WellFormed ∧ State.reset.BuffersInRange ∧ State.reset.PinsFollowPhase ∧
    State.reset.PortFollowsPhase ∧ State.reset.PreemptionHeld true

/-- R220, R226: no operation halts the machine: from every state with buffers in range a step has a next state, unless
the configuration is ill-formed, which has no run; that refusal records the configuration (R221 code 4). -/
def Obligations.OnlyIllFormedConfigurationsStop : Prop :=
  ∀ (s : State),
    (¬ s.cfg.WellFormed → step s = .refused (.configInvalid s.cfg)) ∧
      (s.cfg.WellFormed → s.BuffersInRange → ∃ t, step s = .next t)

/-- R258: in every state a run reaches from one whose pins follow the phase, the reset state among them, TX is low only
while the ready-signal is high. -/
def Obligations.NoCollisionOnAnyRun : Prop :=
  ∀ (n : Nat) (s t : State), s.PinsFollowPhase → Sys2Proof.core.run n s = .next t → t.NoCollision

/-! ### Timing (41_link_sequencer.md) -/

/-- R160: from the state after a `TxStart`, slot `j` of the byte stands on the TX pin for the states of exactly `BIT`
ticks, `j` from 0 to 9, whatever the operation on the port; then the phase `tx_ret` resumes. -/
def Obligations.TransmittedSlotsLastOneBitPeriod : Prop :=
  ∀ (s : State), s.cfg.WellFormed → s.BuffersInRange → s.PinsFollowPhase → s.PortFollowsPhase → s.fault = none →
    s.client = [] → s.phase = .tx → s.txSlot = 0 → s.counter = 1 → s.txOut = .low →
    (∀ j k, j < 10 → k < s.cfg.bit →
      ∃ t, Sys2Proof.core.run (j * s.cfg.bit + k) s = .next t ∧ t.phase = .tx ∧ t.ie = s.ie ∧
        t.txOut = Pin.ofBit (slotOf s.txByte j)) ∧
    (∃ t, Sys2Proof.core.run (10 * s.cfg.bit) s = .next t ∧ t.txOut = .high ∧ t.ie = s.savedIe ∧
      t.phase = if s.txRet = .flush then .flush else .opseq)

/-- R153: a character whose start bit begins at a LISTEN tick before the timeout, with bit period `BIT`, is pushed
`HALF + 9 * BIT` ticks after that tick, with `fe` unchanged, and the block listens again. -/
def Obligations.MatchingCharactersAreReceived : Prop :=
  ∀ (s : State) (b : Byte) (line : List LineItem), s.cfg.WellFormed → s.BuffersInRange → s.PinsFollowPhase →
    s.PortFollowsPhase → s.fault = none → s.client = [] → s.port = none → s.phase = .listen → s.prevRx = true →
    s.now < s.windowStart + s.cfg.timeoutTicks → s.peerLine = .char b :: line →
    ∃ t, Sys2Proof.core.run (s.cfg.half + 9 * s.cfg.bit + 1) s = .next t ∧ t.phase = .listen ∧ t.fe = s.fe ∧
      t.ie = s.ie ∧ t.prevRx = true ∧ t.windowStart = s.now + s.cfg.half + 9 * s.cfg.bit ∧
      t.rx.contents s.cfg.cap =
        if (s.rx.contents s.cfg.cap).length < s.cfg.cap - 1 then s.rx.contents s.cfg.cap ++ [b]
        else s.rx.contents s.cfg.cap

/-- R118, R157: with a silent peer and nothing deferred, the ready-signal is low until the timeout and the phase is
IDLE `TIMEOUT_TICKS + 1` ticks after the first LISTEN tick. -/
def Obligations.SilentSessionsEndAtTheTimeout : Prop :=
  ∀ (s : State), s.cfg.WellFormed → s.BuffersInRange → s.PinsFollowPhase → s.fault = none → s.client = [] →
    s.port = none → s.phase = .listen → s.tx.head = s.tx.tail → s.now = s.windowStart + 1 →
    (∀ j, j < s.cfg.timeoutTicks → s.peerLine[j]? = some (.level .high)) →
    (∀ n, n < s.cfg.timeoutTicks →
      ∃ t, Sys2Proof.core.run n s = .next t ∧ t.readyOut = .low ∧ t.phase = .listen) ∧
    (∃ t, Sys2Proof.core.run s.cfg.timeoutTicks s = .next t ∧ t.readyOut = .high ∧ t.phase = .flush) ∧
    (∃ t, Sys2Proof.core.run (s.cfg.timeoutTicks + 1) s = .next t ∧ t.readyOut = .high ∧ t.phase = .idle)

/-! ### The receive input (10_state.md) -/

/-- R42, R43: whatever the peer drives at this tick, a low line samples 0, a high line samples 1, and a line that is not
driven samples 1 with the pull-up on. (What an undriven line reads with the pull-up off is a free value, log 5.) -/
def Obligations.SampleFollowsTheLineAndThePullUp : Prop :=
  ∀ (s : State) (p : Pin) (line : List LineItem), s.peerLine = .level p :: line →
    (p = .low → s.sample = false) ∧ (p = .high → s.sample = true) ∧
      (p = .z → s.rxPullup = true → s.sample = true)
end

