-- ==== Sys2Proof/Laws/Memory.lean ====
section
/-! SUPPORT. The slots of a buffer: every memory operation keeps the canonical form, and the reset state has it. -/

namespace Sys2Proof.Machine

/-- The canonical form, spelled out. -/
theorem Memory.wf_iff (m : Memory) :
    m.wf = true ↔ m.Pairwise (fun p q => p.1 < q.1) ∧ ∀ p ∈ m, p.2 ≠ unwrittenSlot := by
  simp [Memory.wf]

theorem Memory.wf_nil : Memory.wf [] = true := rfl

theorem Memory.wf_cons (p : Host.Cell) (m : Memory) :
    Memory.wf (p :: m) = true ↔ (∀ q ∈ m, p.1 < q.1) ∧ p.2 ≠ unwrittenSlot ∧ Memory.wf m = true := by
  simp only [Memory.wf_iff, List.pairwise_cons, List.forall_mem_cons]
  tauto

/-- Every pair of a written memory is an old one or the new one. -/
theorem Memory.mem_write {m : Memory} {a : Nat} {v : Byte} {q : Host.Cell} (h : q ∈ Memory.write m a v) :
    q ∈ m ∨ q = (a, v) := by
  induction m with
  | nil =>
    by_cases hv : v = unwrittenSlot <;> simp [Memory.write, hv] at h ⊢
    exact h
  | cons p m ih =>
    obtain ⟨i, w⟩ := p
    simp only [Memory.write] at h
    split_ifs at h
    · rcases List.mem_cons.1 h with h | h
      · simp [h]
      · rcases ih h with h | h <;> simp [h]
    · simp [h]
    · rcases List.mem_cons.1 h with h | h <;> simp [h]
    · simp [List.mem_cons.1 h]
    · rcases List.mem_cons.1 h with h | h <;> simp [h]

/-- A write keeps the canonical form. -/
theorem Memory.write_wf {m : Memory} (a : Nat) (v : Byte) (h : m.wf = true) : (Memory.write m a v).wf = true := by
  induction m with
  | nil => by_cases hv : v = unwrittenSlot <;> simp [Memory.write, Memory.wf, hv]
  | cons p m ih =>
    obtain ⟨i, w⟩ := p
    obtain ⟨hlt, hw, hm⟩ := (Memory.wf_cons _ _).1 h
    simp only [Memory.write]
    split_ifs with h1 h2 h3 h4
    · refine (Memory.wf_cons _ _).2 ⟨fun q hq => ?_, hw, ih hm⟩
      rcases Memory.mem_write hq with hq | rfl
      · exact hlt q hq
      · exact h1
    · exact hm
    · subst h2
      exact (Memory.wf_cons _ _).2 ⟨hlt, h3, hm⟩
    · exact h
    · refine (Memory.wf_cons _ _).2 ⟨fun q hq => ?_, h4, h⟩
      rcases List.mem_cons.1 hq with rfl | hq
      · show a < i; omega
      · have := hlt q hq
        show a < q.1
        simp only at this
        omega

/-- A slot below every listed index reads as unwritten. -/
theorem Memory.read_of_lt {m : Memory} {a : Nat} (h : ∀ q ∈ m, a < q.1) : Memory.read m a = unwrittenSlot := by
  induction m with
  | nil => rfl
  | cons p m ih =>
    obtain ⟨i, w⟩ := p
    have hi : a < i := h (i, w) (by simp)
    rw [Memory.read, if_neg (by omega)]
    exact ih (fun q hq => h q (by simp [hq]))

/-- The canonical form of the reset state's buffers. -/
theorem State.reset_wf : State.reset.rx.slots.wf = true ∧ State.reset.tx.slots.wf = true := ⟨rfl, rfl⟩

end Sys2Proof.Machine
end

