-- ==== Sys2Proof/Laws/Rings.lean ====
section
/-! SUPPORT. The circular buffers: once, everything a push, a pop and an Enqueue can do. -/

namespace Sys2Proof.Machine

/-- The count of R60 without the remainder. -/
theorem Ring.count_eq {cap : Nat} {r : Ring} (hh : r.head < cap) (ht : r.tail < cap) :
    r.count cap = if r.tail ≤ r.head then r.head - r.tail else r.head + cap - r.tail := by
  unfold Ring.count
  split_ifs with h
  · rw [Int.emod_eq_of_lt (by omega) (by omega)]; omega
  · have e : ((r.head : Int) - r.tail) % cap = ((r.head : Int) - r.tail + cap) % cap := by simp
    rw [e, Int.emod_eq_of_lt (by omega) (by omega)]; omega

/-- The next index. -/
theorem nextIndex_eq {cap x : Nat} (h : x < cap) : (x + 1) % cap = if x + 1 = cap then 0 else x + 1 := by
  split_ifs with e
  · rw [e, Nat.mod_self]
  · exact Nat.mod_eq_of_lt (by omega)

/-- The index `j` slots on. -/
theorem indexAdd_eq {cap x j : Nat} (h : x < cap) (hj : j ≤ cap) :
    (x + j) % cap = if x + j < cap then x + j else x + j - cap := by
  split_ifs with e
  · exact Nat.mod_eq_of_lt e
  · rw [Nat.mod_eq_sub_mod (by omega), Nat.mod_eq_of_lt (by omega)]

/-- A push onto a buffer in range. -/
theorem Ring.push_of_ok {cap : Nat} {b : Buffer} {r : Ring} {v : Byte} (h : r.Ok cap) :
    r.push cap b v =
      .ok (if (r.head + 1) % cap = r.tail then r
           else { r with slots := r.slots.write r.head v, head := (r.head + 1) % cap }) := by
  unfold Ring.push
  split_ifs with h1 h2
  · rfl
  · rfl
  · exact absurd h.1 h2

/-- A pop of a buffer in range. -/
theorem Ring.pop_of_ok {cap : Nat} {b : Buffer} {r : Ring} (h : r.Ok cap) :
    r.pop cap b =
      if r.head = r.tail then .ok (none, r)
      else .ok (some (Memory.read r.slots r.tail), { r with tail := (r.tail + 1) % cap }) := by
  unfold Ring.pop
  split_ifs with h1 h2
  · rfl
  · rfl
  · exact absurd h.2.1 h2

/-- Everything a push can do. -/
theorem Ring.push_cases {cap : Nat} {b : Buffer} {r r' : Ring} {v : Byte} (h : r.push cap b v = .ok r') :
    ((r.head + 1) % cap = r.tail ∧ r' = r) ∨
      ((r.head + 1) % cap ≠ r.tail ∧ r.head < cap ∧
        r' = { r with slots := r.slots.write r.head v, head := (r.head + 1) % cap }) := by
  unfold Ring.push at h
  split_ifs at h with h1 h2
  · left; exact ⟨h1, by cases h; rfl⟩
  · right; exact ⟨h1, h2, by cases h; rfl⟩

/-- Everything a pop can do. -/
theorem Ring.pop_cases {cap : Nat} {b : Buffer} {r r' : Ring} {v : Option Byte} (h : r.pop cap b = .ok (v, r')) :
    (r.head = r.tail ∧ v = none ∧ r' = r) ∨
      (r.head ≠ r.tail ∧ r.tail < cap ∧ v = some (Memory.read r.slots r.tail) ∧
        r' = { r with tail := (r.tail + 1) % cap }) := by
  unfold Ring.pop at h
  split_ifs at h with h1 h2
  · left; cases h; exact ⟨h1, rfl, rfl⟩
  · right; cases h; exact ⟨h1, h2, rfl, rfl⟩

/-- A push keeps a buffer in range and canonical. -/
theorem Ring.push_keeps_ok {cap : Nat} {b : Buffer} {r r' : Ring} {v : Byte} (h : r.Ok cap)
    (hp : r.push cap b v = .ok r') : r'.Ok cap := by
  rcases Ring.push_cases hp with ⟨_, rfl⟩ | ⟨_, hlt, rfl⟩
  · exact h
  · refine ⟨Nat.mod_lt _ (by omega), h.2.1, Memory.write_wf _ _ h.2.2.1, fun q hq => ?_⟩
    rcases Memory.mem_write hq with hq | rfl
    · exact h.2.2.2 q hq
    · exact hlt

/-- A pop keeps a buffer in range and canonical. -/
theorem Ring.pop_keeps_ok {cap : Nat} {b : Buffer} {r r' : Ring} {v : Option Byte} (h : r.Ok cap)
    (hp : r.pop cap b = .ok (v, r')) : r'.Ok cap := by
  rcases Ring.pop_cases hp with ⟨_, _, rfl⟩ | ⟨_, hlt, _, rfl⟩
  · exact h
  · exact ⟨h.1, Nat.mod_lt _ (by omega), h.2.2.1, h.2.2.2⟩

/-- The pushes of `Enqueue` on a buffer in range do not fault and keep it in range, and leave its read index. -/
theorem Ring.pushAll_ok {cap : Nat} {b : Buffer} (vs : List Byte) :
    ∀ {r : Ring}, r.Ok cap → ∃ r', r.pushAll cap b vs = .ok r' ∧ r'.Ok cap ∧ r'.tail = r.tail := by
  induction vs with
  | nil => exact fun {r} h => ⟨r, rfl, h, rfl⟩
  | cons v vs ih =>
    intro r h
    have hp := Ring.push_of_ok (b := b) (v := v) h
    obtain ⟨r', he, ho, ht⟩ := ih (Ring.push_keeps_ok h hp)
    refine ⟨r', by rw [Ring.pushAll, hp]; exact he, ho, ht.trans ?_⟩
    split_ifs <;> rfl

/-- What every buffer the pushes end in keeps, from one push. -/
theorem Ring.pushAll_keeps_ok {cap : Nat} {b : Buffer} {r r' : Ring} {vs : List Byte} (h : r.Ok cap)
    (hp : r.pushAll cap b vs = .ok r') : r'.Ok cap := by
  obtain ⟨r'', he, ho, _⟩ := Ring.pushAll_ok (b := b) vs h
  rw [he] at hp
  cases hp
  exact ho

end Sys2Proof.Machine
end

