-- ==== Sys2Proof/Laws/Completion.lean ====
section
/-! SUPPORT. No meaning stops with the buffers in range. -/

namespace Sys2Proof.Machine

/-- A port operation completes if its body does. -/
theorem portOperation_completes {i : Instr} {frame : List Byte} {nb : Bool}
    {body : PortOp → State → Except Fault State} {s : State}
    (hb : ∀ p l, ∃ t, body p { s with port := l } = .ok t) : ∃ t, portOperation i frame nb body s = .next t := by
  unfold portOperation
  split
  · rename_i p _
    obtain ⟨t, ht⟩ := hb p s.port
    exact ⟨t, by rw [ht]; rfl⟩
  · split_ifs
    · exact ⟨_, rfl⟩
    · obtain ⟨t, ht⟩ := hb ⟨i, frame, .new⟩ (some ⟨i, frame, .new⟩)
      exact ⟨t, by rw [State.accept, ht]; rfl⟩

/-- The send path completes. -/
theorem sendPath_completes {s : State} (h : s.tx.Ok s.cfg.cap) (p : PortOp) (l : Option PortOp) :
    ∃ t, sendPath p { s with port := l } = .ok t := by
  obtain ⟨r, hr, _⟩ := Ring.pushAll_ok (b := .tx) p.frame h
  unfold sendPath
  cases p.stage with
  | new =>
    simp only [hr]
    split_ifs <;> exact ⟨_, rfl⟩
  | sending =>
    simp only
    split_ifs <;> exact ⟨_, rfl⟩
  | haveHi hi => exact ⟨_, rfl⟩

/-- Every instruction has a next state when the buffers are in range. -/
theorem exec_completes {s : State} (hr : s.rx.Ok s.cfg.cap) (ht : s.tx.Ok s.cfg.cap) (i : Instr) :
    ∃ t, exec i s = .next t := by
  have hpop := Ring.pop_of_ok (b := .rx) hr
  cases i with
  | begin_ =>
    simp only [exec, execBegin]
    exact portOperation_completes fun p l => by split_ifs <;> exact ⟨_, rfl⟩
  | available =>
    simp only [exec, execAvailable]
    exact portOperation_completes fun p l => ⟨_, rfl⟩
  | getFe =>
    simp only [exec, execGetFe]
    exact portOperation_completes fun p l => ⟨_, rfl⟩
  | getStatus =>
    simp only [exec, execGetStatus]
    exact portOperation_completes fun p l => ⟨_, rfl⟩
  | update =>
    simp only [exec, execUpdate]
    exact portOperation_completes fun p l => by split_ifs <;> exact ⟨_, rfl⟩
  | read =>
    simp only [exec, execRead]
    exact portOperation_completes fun p l => by
      by_cases he : s.rx.head = s.rx.tail <;> simp only [hpop, he, if_true, if_false] <;> exact ⟨_, rfl⟩
  | readU8 =>
    simp only [exec, execReadU8]
    exact portOperation_completes fun p l => by
      by_cases he : s.rx.head = s.rx.tail <;> simp only [hpop, he, if_true, if_false] <;> split_ifs <;>
        exact ⟨_, rfl⟩
  | readU16 =>
    simp only [exec, execReadU16]
    exact portOperation_completes fun p l => by
      by_cases he : s.rx.head = s.rx.tail <;> by_cases hp : s.atStart.phase = .idle <;>
        cases hst : p.stage <;> simp only [hpop, he, hp, if_true, if_false, ne_eq, not_true_eq_false,
          not_false_eq_true] <;> exact ⟨_, rfl⟩
  | write b =>
    simp only [exec, execWrite]
    exact portOperation_completes (sendPath_completes ht)
  | sendKey code =>
    simp only [exec, execSendKey]
    exact portOperation_completes (sendPath_completes ht)
  | sendLine chars =>
    simp only [exec, execSendLine]
    exact portOperation_completes (sendPath_completes ht)
  | sendDebug text =>
    simp only [exec, execSendDebug]
    exact portOperation_completes (sendPath_completes ht)
  | sendReady =>
    simp only [exec, execSendReady]
    exact portOperation_completes (sendPath_completes ht)
  | keyFrame code => exact ⟨_, rfl⟩
  | lineFrame chars => exact ⟨_, rfl⟩
  | debugFrame text => exact ⟨_, rfl⟩
  | readyFrame => exact ⟨_, rfl⟩
  | commandFrameIn opcode args => exact ⟨_, rfl⟩
  | serialChar b => exact ⟨_, rfl⟩

end Sys2Proof.Machine
end

