-- ==== Sys2Proof/Laws/HostDecoder.lean ====
section
/-! SUPPORT. The reference decoder as an equation on a non-empty stream, without its bound. -/

namespace Sys2Proof.Machine

theorem scanKey_shortens {c : Config} {s r : List Byte} {e : Event} (h : scanKey c s = .item e r) :
    r.length ≤ s.length := by
  unfold scanKey at h
  split at h
  · split_ifs at h <;> cases h <;> simp <;> omega
  · cases h

theorem scanLine_shortens {c : Config} {s r : List Byte} {e : Event} (h : scanLine c s = .item e r) :
    r.length ≤ s.length := by
  unfold scanLine at h
  split at h
  · cases h
  · split_ifs at h
    · cases h
      simp
    · split at h
      · rename_i hd
        have := congrArg List.length hd
        simp only [List.length_drop, List.length_cons] at this
        split_ifs at h <;> cases h <;> simp <;> omega
      · cases h

theorem scanDebug_shortens {c : Config} {s r : List Byte} {e : Event} (h : scanDebug c s = .item e r) :
    r.length ≤ s.length := by
  unfold scanDebug at h
  simp only at h
  split at h
  · cases h
    simp
  · split_ifs at h
    cases h
    simp

theorem scanReady_shortens {c : Config} {s r : List Byte} {e : Event} (h : scanReady c s = .item e r) :
    r.length ≤ s.length := by
  unfold scanReady at h
  split at h
  · cases h
  · split_ifs at h
    · cases h
      simp
    · split at h
      · cases h
      · split_ifs at h <;> cases h <;> simp
        omega

/-- Every event takes the byte it starts at. -/
theorem scanAt_shortens {c : Config} {b : Byte} {s r : List Byte} {e : Event} (h : scanAt c b s = .item e r) :
    r.length ≤ s.length := by
  unfold scanAt at h
  split_ifs at h
  · exact scanKey_shortens h
  · exact scanLine_shortens h
  · exact scanDebug_shortens h
  · exact scanReady_shortens h
  · cases h
    simp

/-- A bound of the stream's length is enough. -/
theorem hostDecodeUpTo_eq (c : Config) (n m : Nat) (s : List Byte) (h1 : s.length ≤ n) (h2 : s.length ≤ m) :
    hostDecodeUpTo c n s = hostDecodeUpTo c m s := by
  induction n generalizing m s with
  | zero =>
    have : s = [] := by simpa using h1
    subst this
    cases m <;> rfl
  | succ n ih =>
    cases s with
    | nil => cases m <;> rfl
    | cons b s =>
      cases m with
      | zero => simp at h2
      | succ m =>
        simp only [hostDecodeUpTo]
        cases hsc : scanAt c b s with
        | wait => rfl
        | item e r =>
          have := scanAt_shortens hsc
          simp only [List.length_cons] at h1 h2
          simp only
          rw [ih m r (by omega) (by omega)]

@[simp] theorem hostDecode_nil (c : Config) : hostDecode c [] = [] := rfl

/-- R191: one event at a time. -/
theorem hostDecode_cons (c : Config) (b : Byte) (s : List Byte) :
    hostDecode c (b :: s) =
      match scanAt c b s with
      | .wait => [.incomplete (b :: s)]
      | .item e rest => e :: hostDecode c rest := by
  unfold hostDecode
  simp only [List.length_cons, hostDecodeUpTo]
  cases hsc : scanAt c b s with
  | wait => rfl
  | item e r => simp only; rw [hostDecodeUpTo_eq c _ r.length r (scanAt_shortens hsc) (Nat.le_refl _)]

end Sys2Proof.Machine
end

