-- ==== Sys2Proof/Laws/Request.lean ====
section
/-! SUPPORT. The request word: its two fields, and the request decoder on a word given by them. -/

namespace Sys2Proof.Machine

/-- A word is its two fields. -/
theorem opWord_fields (w : Word16) : opWord (opField w) (immField w) = w := by
  unfold opWord opField immField
  apply BitVec.eq_of_getLsbD_eq
  intro i hi
  rw [BitVec.getLsbD_append]
  by_cases h : i < 8
  · simp [h]
  · simp only [h, BitVec.getLsbD_extractLsb', if_false]
    rw [show 8 + (i - 8) = i by omega]
    simp [show i - 8 < 8 by omega]

@[simp] theorem opField_opWord (op imm : Byte) : opField (opWord op imm) = op := by
  unfold opWord opField
  apply BitVec.eq_of_getLsbD_eq
  intro i hi
  rw [BitVec.getLsbD_extractLsb', BitVec.getLsbD_append]
  simp [hi]

@[simp] theorem immField_opWord (op imm : Byte) : immField (opWord op imm) = imm := by
  unfold opWord immField
  apply BitVec.eq_of_getLsbD_eq
  intro i hi
  rw [BitVec.getLsbD_extractLsb', BitVec.getLsbD_append]
  simp [hi]

/-- The request decoder by the operation code. -/
theorem decodeRequest_opWord (op imm : Byte) (payload : List Byte) :
    decodeRequest (opWord op imm) payload =
      match op.toNat with
      | 0x01 => plainRequest imm payload .begin_
      | 0x02 => plainRequest imm payload .available
      | 0x03 => plainRequest imm payload .read
      | 0x04 => byteRequest payload (.write imm)
      | 0x05 => plainRequest imm payload .update
      | 0x06 => plainRequest imm payload .getFe
      | 0x07 => plainRequest imm payload .getStatus
      | 0x10 => byteRequest payload (.sendKey imm)
      | 0x11 => if payload.length ≠ imm.toNat then .error .badOperand else .ok (.sendLine payload)
      | 0x12 => if imm ≠ 0 then .error .illegalOp else .ok (.sendDebug payload)
      | 0x13 => plainRequest imm payload .sendReady
      | 0x14 => plainRequest imm payload .readU8
      | 0x15 => plainRequest imm payload .readU16
      | _ => .error .illegalOp := by
  have h1 : (opWord op imm).extractLsb' 8 8 = op := opField_opWord op imm
  have h2 : (opWord op imm).extractLsb' 0 8 = imm := immField_opWord op imm
  unfold decodeRequest
  simp only [h1, h2] <;> rfl

end Sys2Proof.Machine
end

