-- ==== Sys2Proof/Laws/PerInstr.lean ====
section
/-! SUPPORT. Statements about every instruction, one lemma a constructor. -/

namespace Sys2Proof.Laws.StandsInItsFormat

open Sys2Proof.Machine

/-- R81: an operation encodes to a request whose operation code R82 lists and whose `imm8` is 0 where R82 says so; a wire
format encodes to something else. -/
def Statement (i : Instr) : Prop :=
  ∀ c : Config,
    (i.isRequest = true → ∃ w payload, encode c i = .request w payload ∧ ¬ ReservedRequest w) ∧
      (i.isRequest = false → ∀ w payload, encode c i ≠ .request w payload)

theorem begin_ : Statement .begin_ :=
  fun c => ⟨fun _ => ⟨_, _, rfl, by simp [ReservedRequest, listedOps, zeroImmOps]⟩, fun h => (by cases h)⟩

theorem available : Statement .available :=
  fun c => ⟨fun _ => ⟨_, _, rfl, by simp [ReservedRequest, listedOps, zeroImmOps]⟩, fun h => (by cases h)⟩

theorem read : Statement .read :=
  fun c => ⟨fun _ => ⟨_, _, rfl, by simp [ReservedRequest, listedOps, zeroImmOps]⟩, fun h => (by cases h)⟩

theorem write (b : Byte) : Statement (.write b) :=
  fun c => ⟨fun _ => ⟨_, _, rfl, by simp [ReservedRequest, listedOps, zeroImmOps]⟩, fun h => (by cases h)⟩

theorem update : Statement .update :=
  fun c => ⟨fun _ => ⟨_, _, rfl, by simp [ReservedRequest, listedOps, zeroImmOps]⟩, fun h => (by cases h)⟩

theorem getFe : Statement .getFe :=
  fun c => ⟨fun _ => ⟨_, _, rfl, by simp [ReservedRequest, listedOps, zeroImmOps]⟩, fun h => (by cases h)⟩

theorem getStatus : Statement .getStatus :=
  fun c => ⟨fun _ => ⟨_, _, rfl, by simp [ReservedRequest, listedOps, zeroImmOps]⟩, fun h => (by cases h)⟩

theorem sendKey (code : Byte) : Statement (.sendKey code) :=
  fun c => ⟨fun _ => ⟨_, _, rfl, by simp [ReservedRequest, listedOps, zeroImmOps]⟩, fun h => (by cases h)⟩

theorem sendLine (chars : List Byte) : Statement (.sendLine chars) :=
  fun c => ⟨fun _ => ⟨_, _, rfl, by simp [ReservedRequest, listedOps, zeroImmOps]⟩, fun h => (by cases h)⟩

theorem sendDebug (text : List Byte) : Statement (.sendDebug text) :=
  fun c => ⟨fun _ => ⟨_, _, rfl, by simp [ReservedRequest, listedOps, zeroImmOps]⟩, fun h => (by cases h)⟩

theorem sendReady : Statement .sendReady :=
  fun c => ⟨fun _ => ⟨_, _, rfl, by simp [ReservedRequest, listedOps, zeroImmOps]⟩, fun h => (by cases h)⟩

theorem readU8 : Statement .readU8 :=
  fun c => ⟨fun _ => ⟨_, _, rfl, by simp [ReservedRequest, listedOps, zeroImmOps]⟩, fun h => (by cases h)⟩

theorem readU16 : Statement .readU16 :=
  fun c => ⟨fun _ => ⟨_, _, rfl, by simp [ReservedRequest, listedOps, zeroImmOps]⟩, fun h => (by cases h)⟩

theorem keyFrame (code : Byte) : Statement (.keyFrame code) :=
  fun c => ⟨fun h => (by cases h), fun _ w payload h => (by cases h)⟩

theorem lineFrame (chars : List Byte) : Statement (.lineFrame chars) :=
  fun c => ⟨fun h => (by cases h), fun _ w payload h => (by cases h)⟩

theorem debugFrame (text : List Byte) : Statement (.debugFrame text) :=
  fun c => ⟨fun h => (by cases h), fun _ w payload h => (by cases h)⟩

theorem readyFrame : Statement .readyFrame :=
  fun c => ⟨fun h => (by cases h), fun _ w payload h => (by cases h)⟩

theorem commandFrameIn (opcode : Byte) (args : List Byte) : Statement (.commandFrameIn opcode args) :=
  fun c => ⟨fun h => (by cases h), fun _ w payload h => (by cases h)⟩

theorem serialChar (b : Byte) : Statement (.serialChar b) :=
  fun c => ⟨fun h => (by cases h), fun _ w payload h => (by cases h)⟩

end Sys2Proof.Laws.StandsInItsFormat
end

