-- ==== Sys2Proof/Laws/State.lean ====
section
/-! SUPPORT. One lemma per field per named update of the state, all by definition. -/

namespace Sys2Proof.Machine

/-! ### resetCounter -/

@[simp] theorem State.resetCounter_cfg (s : State) : (s.resetCounter).cfg = s.cfg := rfl
@[simp] theorem State.resetCounter_phase (s : State) : (s.resetCounter).phase = s.phase := rfl
@[simp] theorem State.resetCounter_txOut (s : State) : (s.resetCounter).txOut = s.txOut := rfl
@[simp] theorem State.resetCounter_readyOut (s : State) : (s.resetCounter).readyOut = s.readyOut := rfl
@[simp] theorem State.resetCounter_rxPullup (s : State) : (s.resetCounter).rxPullup = s.rxPullup := rfl
@[simp] theorem State.resetCounter_counter (s : State) : (s.resetCounter).counter = 0 := rfl
@[simp] theorem State.resetCounter_cntRun (s : State) : (s.resetCounter).cntRun = s.cntRun := rfl
@[simp] theorem State.resetCounter_ie (s : State) : (s.resetCounter).ie = s.ie := rfl
@[simp] theorem State.resetCounter_savedIe (s : State) : (s.resetCounter).savedIe = s.savedIe := rfl
@[simp] theorem State.resetCounter_receiving (s : State) : (s.resetCounter).receiving = s.receiving := rfl
@[simp] theorem State.resetCounter_fe (s : State) : (s.resetCounter).fe = s.fe := rfl
@[simp] theorem State.resetCounter_rx (s : State) : (s.resetCounter).rx = s.rx := rfl
@[simp] theorem State.resetCounter_tx (s : State) : (s.resetCounter).tx = s.tx := rfl
@[simp] theorem State.resetCounter_windowStart (s : State) : (s.resetCounter).windowStart = s.windowStart := rfl
@[simp] theorem State.resetCounter_prevRx (s : State) : (s.resetCounter).prevRx = s.prevRx := rfl
@[simp] theorem State.resetCounter_rxAcc (s : State) : (s.resetCounter).rxAcc = s.rxAcc := rfl
@[simp] theorem State.resetCounter_rxK (s : State) : (s.resetCounter).rxK = s.rxK := rfl
@[simp] theorem State.resetCounter_txByte (s : State) : (s.resetCounter).txByte = s.txByte := rfl
@[simp] theorem State.resetCounter_txSlot (s : State) : (s.resetCounter).txSlot = s.txSlot := rfl
@[simp] theorem State.resetCounter_txRet (s : State) : (s.resetCounter).txRet = s.txRet := rfl
@[simp] theorem State.resetCounter_pend (s : State) : (s.resetCounter).pend = s.pend := rfl
@[simp] theorem State.resetCounter_port (s : State) : (s.resetCounter).port = s.port := rfl
@[simp] theorem State.resetCounter_fault (s : State) : (s.resetCounter).fault = s.fault := rfl
@[simp] theorem State.resetCounter_now (s : State) : (s.resetCounter).now = s.now := rfl
@[simp] theorem State.resetCounter_result (s : State) : (s.resetCounter).result = s.result := rfl
@[simp] theorem State.resetCounter_atStart (s : State) : (s.resetCounter).atStart = s.atStart := rfl
@[simp] theorem State.resetCounter_client (s : State) : (s.resetCounter).client = s.client := rfl
@[simp] theorem State.resetCounter_peerLine (s : State) : (s.resetCounter).peerLine = s.peerLine := rfl
@[simp] theorem State.resetCounter_hostIn (s : State) : (s.resetCounter).hostIn = s.hostIn := rfl
@[simp] theorem State.resetCounter_hostEvents (s : State) : (s.resetCounter).hostEvents = s.hostEvents := rfl

/-! ### enterCritical -/

@[simp] theorem State.enterCritical_cfg (s : State) : (s.enterCritical).cfg = s.cfg := rfl
@[simp] theorem State.enterCritical_phase (s : State) : (s.enterCritical).phase = s.phase := rfl
@[simp] theorem State.enterCritical_txOut (s : State) : (s.enterCritical).txOut = s.txOut := rfl
@[simp] theorem State.enterCritical_readyOut (s : State) : (s.enterCritical).readyOut = s.readyOut := rfl
@[simp] theorem State.enterCritical_rxPullup (s : State) : (s.enterCritical).rxPullup = s.rxPullup := rfl
@[simp] theorem State.enterCritical_counter (s : State) : (s.enterCritical).counter = s.counter := rfl
@[simp] theorem State.enterCritical_cntRun (s : State) : (s.enterCritical).cntRun = s.cntRun := rfl
@[simp] theorem State.enterCritical_ie (s : State) : (s.enterCritical).ie = false := rfl
@[simp] theorem State.enterCritical_savedIe (s : State) : (s.enterCritical).savedIe = s.ie := rfl
@[simp] theorem State.enterCritical_receiving (s : State) : (s.enterCritical).receiving = s.receiving := rfl
@[simp] theorem State.enterCritical_fe (s : State) : (s.enterCritical).fe = s.fe := rfl
@[simp] theorem State.enterCritical_rx (s : State) : (s.enterCritical).rx = s.rx := rfl
@[simp] theorem State.enterCritical_tx (s : State) : (s.enterCritical).tx = s.tx := rfl
@[simp] theorem State.enterCritical_windowStart (s : State) : (s.enterCritical).windowStart = s.windowStart := rfl
@[simp] theorem State.enterCritical_prevRx (s : State) : (s.enterCritical).prevRx = s.prevRx := rfl
@[simp] theorem State.enterCritical_rxAcc (s : State) : (s.enterCritical).rxAcc = s.rxAcc := rfl
@[simp] theorem State.enterCritical_rxK (s : State) : (s.enterCritical).rxK = s.rxK := rfl
@[simp] theorem State.enterCritical_txByte (s : State) : (s.enterCritical).txByte = s.txByte := rfl
@[simp] theorem State.enterCritical_txSlot (s : State) : (s.enterCritical).txSlot = s.txSlot := rfl
@[simp] theorem State.enterCritical_txRet (s : State) : (s.enterCritical).txRet = s.txRet := rfl
@[simp] theorem State.enterCritical_pend (s : State) : (s.enterCritical).pend = s.pend := rfl
@[simp] theorem State.enterCritical_port (s : State) : (s.enterCritical).port = s.port := rfl
@[simp] theorem State.enterCritical_fault (s : State) : (s.enterCritical).fault = s.fault := rfl
@[simp] theorem State.enterCritical_now (s : State) : (s.enterCritical).now = s.now := rfl
@[simp] theorem State.enterCritical_result (s : State) : (s.enterCritical).result = s.result := rfl
@[simp] theorem State.enterCritical_atStart (s : State) : (s.enterCritical).atStart = s.atStart := rfl
@[simp] theorem State.enterCritical_client (s : State) : (s.enterCritical).client = s.client := rfl
@[simp] theorem State.enterCritical_peerLine (s : State) : (s.enterCritical).peerLine = s.peerLine := rfl
@[simp] theorem State.enterCritical_hostIn (s : State) : (s.enterCritical).hostIn = s.hostIn := rfl
@[simp] theorem State.enterCritical_hostEvents (s : State) : (s.enterCritical).hostEvents = s.hostEvents := rfl

/-! ### exitCritical -/

@[simp] theorem State.exitCritical_cfg (s : State) : (s.exitCritical).cfg = s.cfg := rfl
@[simp] theorem State.exitCritical_phase (s : State) : (s.exitCritical).phase = s.phase := rfl
@[simp] theorem State.exitCritical_txOut (s : State) : (s.exitCritical).txOut = s.txOut := rfl
@[simp] theorem State.exitCritical_readyOut (s : State) : (s.exitCritical).readyOut = s.readyOut := rfl
@[simp] theorem State.exitCritical_rxPullup (s : State) : (s.exitCritical).rxPullup = s.rxPullup := rfl
@[simp] theorem State.exitCritical_counter (s : State) : (s.exitCritical).counter = s.counter := rfl
@[simp] theorem State.exitCritical_cntRun (s : State) : (s.exitCritical).cntRun = s.cntRun := rfl
@[simp] theorem State.exitCritical_ie (s : State) : (s.exitCritical).ie = s.savedIe := rfl
@[simp] theorem State.exitCritical_savedIe (s : State) : (s.exitCritical).savedIe = s.savedIe := rfl
@[simp] theorem State.exitCritical_receiving (s : State) : (s.exitCritical).receiving = s.receiving := rfl
@[simp] theorem State.exitCritical_fe (s : State) : (s.exitCritical).fe = s.fe := rfl
@[simp] theorem State.exitCritical_rx (s : State) : (s.exitCritical).rx = s.rx := rfl
@[simp] theorem State.exitCritical_tx (s : State) : (s.exitCritical).tx = s.tx := rfl
@[simp] theorem State.exitCritical_windowStart (s : State) : (s.exitCritical).windowStart = s.windowStart := rfl
@[simp] theorem State.exitCritical_prevRx (s : State) : (s.exitCritical).prevRx = s.prevRx := rfl
@[simp] theorem State.exitCritical_rxAcc (s : State) : (s.exitCritical).rxAcc = s.rxAcc := rfl
@[simp] theorem State.exitCritical_rxK (s : State) : (s.exitCritical).rxK = s.rxK := rfl
@[simp] theorem State.exitCritical_txByte (s : State) : (s.exitCritical).txByte = s.txByte := rfl
@[simp] theorem State.exitCritical_txSlot (s : State) : (s.exitCritical).txSlot = s.txSlot := rfl
@[simp] theorem State.exitCritical_txRet (s : State) : (s.exitCritical).txRet = s.txRet := rfl
@[simp] theorem State.exitCritical_pend (s : State) : (s.exitCritical).pend = s.pend := rfl
@[simp] theorem State.exitCritical_port (s : State) : (s.exitCritical).port = s.port := rfl
@[simp] theorem State.exitCritical_fault (s : State) : (s.exitCritical).fault = s.fault := rfl
@[simp] theorem State.exitCritical_now (s : State) : (s.exitCritical).now = s.now := rfl
@[simp] theorem State.exitCritical_result (s : State) : (s.exitCritical).result = s.result := rfl
@[simp] theorem State.exitCritical_atStart (s : State) : (s.exitCritical).atStart = s.atStart := rfl
@[simp] theorem State.exitCritical_client (s : State) : (s.exitCritical).client = s.client := rfl
@[simp] theorem State.exitCritical_peerLine (s : State) : (s.exitCritical).peerLine = s.peerLine := rfl
@[simp] theorem State.exitCritical_hostIn (s : State) : (s.exitCritical).hostIn = s.hostIn := rfl
@[simp] theorem State.exitCritical_hostEvents (s : State) : (s.exitCritical).hostEvents = s.hostEvents := rfl

/-! ### sessionStart -/

@[simp] theorem State.sessionStart_cfg (s : State) : (s.sessionStart).cfg = s.cfg := rfl
@[simp] theorem State.sessionStart_phase (s : State) : (s.sessionStart).phase = .listen := rfl
@[simp] theorem State.sessionStart_txOut (s : State) : (s.sessionStart).txOut = s.txOut := rfl
@[simp] theorem State.sessionStart_readyOut (s : State) : (s.sessionStart).readyOut = .low := rfl
@[simp] theorem State.sessionStart_rxPullup (s : State) : (s.sessionStart).rxPullup = s.rxPullup := rfl
@[simp] theorem State.sessionStart_counter (s : State) : (s.sessionStart).counter = s.counter := rfl
@[simp] theorem State.sessionStart_cntRun (s : State) : (s.sessionStart).cntRun = s.cntRun := rfl
@[simp] theorem State.sessionStart_ie (s : State) : (s.sessionStart).ie = s.ie := rfl
@[simp] theorem State.sessionStart_savedIe (s : State) : (s.sessionStart).savedIe = s.savedIe := rfl
@[simp] theorem State.sessionStart_receiving (s : State) : (s.sessionStart).receiving = true := rfl
@[simp] theorem State.sessionStart_fe (s : State) : (s.sessionStart).fe = s.fe := rfl
@[simp] theorem State.sessionStart_rx (s : State) : (s.sessionStart).rx = s.rx := rfl
@[simp] theorem State.sessionStart_tx (s : State) : (s.sessionStart).tx = s.tx := rfl
@[simp] theorem State.sessionStart_windowStart (s : State) : (s.sessionStart).windowStart = s.now := rfl
@[simp] theorem State.sessionStart_prevRx (s : State) : (s.sessionStart).prevRx = true := rfl
@[simp] theorem State.sessionStart_rxAcc (s : State) : (s.sessionStart).rxAcc = s.rxAcc := rfl
@[simp] theorem State.sessionStart_rxK (s : State) : (s.sessionStart).rxK = s.rxK := rfl
@[simp] theorem State.sessionStart_txByte (s : State) : (s.sessionStart).txByte = s.txByte := rfl
@[simp] theorem State.sessionStart_txSlot (s : State) : (s.sessionStart).txSlot = s.txSlot := rfl
@[simp] theorem State.sessionStart_txRet (s : State) : (s.sessionStart).txRet = s.txRet := rfl
@[simp] theorem State.sessionStart_pend (s : State) : (s.sessionStart).pend = s.pend := rfl
@[simp] theorem State.sessionStart_port (s : State) : (s.sessionStart).port = s.port := rfl
@[simp] theorem State.sessionStart_fault (s : State) : (s.sessionStart).fault = s.fault := rfl
@[simp] theorem State.sessionStart_now (s : State) : (s.sessionStart).now = s.now := rfl
@[simp] theorem State.sessionStart_result (s : State) : (s.sessionStart).result = s.result := rfl
@[simp] theorem State.sessionStart_atStart (s : State) : (s.sessionStart).atStart = s.atStart := rfl
@[simp] theorem State.sessionStart_client (s : State) : (s.sessionStart).client = s.client := rfl
@[simp] theorem State.sessionStart_peerLine (s : State) : (s.sessionStart).peerLine = s.peerLine := rfl
@[simp] theorem State.sessionStart_hostIn (s : State) : (s.sessionStart).hostIn = s.hostIn := rfl
@[simp] theorem State.sessionStart_hostEvents (s : State) : (s.sessionStart).hostEvents = s.hostEvents := rfl

/-! ### seqStart -/

@[simp] theorem State.seqStart_cfg (s : State) (bytes : List Byte) : (s.seqStart bytes).cfg = s.cfg := rfl
@[simp] theorem State.seqStart_phase (s : State) (bytes : List Byte) : (s.seqStart bytes).phase = .opseq := rfl
@[simp] theorem State.seqStart_txOut (s : State) (bytes : List Byte) : (s.seqStart bytes).txOut = s.txOut := rfl
@[simp] theorem State.seqStart_readyOut (s : State) (bytes : List Byte) : (s.seqStart bytes).readyOut = s.readyOut := rfl
@[simp] theorem State.seqStart_rxPullup (s : State) (bytes : List Byte) : (s.seqStart bytes).rxPullup = s.rxPullup := rfl
@[simp] theorem State.seqStart_counter (s : State) (bytes : List Byte) : (s.seqStart bytes).counter = s.counter := rfl
@[simp] theorem State.seqStart_cntRun (s : State) (bytes : List Byte) : (s.seqStart bytes).cntRun = s.cntRun := rfl
@[simp] theorem State.seqStart_ie (s : State) (bytes : List Byte) : (s.seqStart bytes).ie = s.ie := rfl
@[simp] theorem State.seqStart_savedIe (s : State) (bytes : List Byte) : (s.seqStart bytes).savedIe = s.savedIe := rfl
@[simp] theorem State.seqStart_receiving (s : State) (bytes : List Byte) : (s.seqStart bytes).receiving = s.receiving := rfl
@[simp] theorem State.seqStart_fe (s : State) (bytes : List Byte) : (s.seqStart bytes).fe = s.fe := rfl
@[simp] theorem State.seqStart_rx (s : State) (bytes : List Byte) : (s.seqStart bytes).rx = s.rx := rfl
@[simp] theorem State.seqStart_tx (s : State) (bytes : List Byte) : (s.seqStart bytes).tx = s.tx := rfl
@[simp] theorem State.seqStart_windowStart (s : State) (bytes : List Byte) : (s.seqStart bytes).windowStart = s.windowStart := rfl
@[simp] theorem State.seqStart_prevRx (s : State) (bytes : List Byte) : (s.seqStart bytes).prevRx = s.prevRx := rfl
@[simp] theorem State.seqStart_rxAcc (s : State) (bytes : List Byte) : (s.seqStart bytes).rxAcc = s.rxAcc := rfl
@[simp] theorem State.seqStart_rxK (s : State) (bytes : List Byte) : (s.seqStart bytes).rxK = s.rxK := rfl
@[simp] theorem State.seqStart_txByte (s : State) (bytes : List Byte) : (s.seqStart bytes).txByte = s.txByte := rfl
@[simp] theorem State.seqStart_txSlot (s : State) (bytes : List Byte) : (s.seqStart bytes).txSlot = s.txSlot := rfl
@[simp] theorem State.seqStart_txRet (s : State) (bytes : List Byte) : (s.seqStart bytes).txRet = s.txRet := rfl
@[simp] theorem State.seqStart_pend (s : State) (bytes : List Byte) : (s.seqStart bytes).pend = bytes := rfl
@[simp] theorem State.seqStart_port (s : State) (bytes : List Byte) : (s.seqStart bytes).port = s.port := rfl
@[simp] theorem State.seqStart_fault (s : State) (bytes : List Byte) : (s.seqStart bytes).fault = s.fault := rfl
@[simp] theorem State.seqStart_now (s : State) (bytes : List Byte) : (s.seqStart bytes).now = s.now := rfl
@[simp] theorem State.seqStart_result (s : State) (bytes : List Byte) : (s.seqStart bytes).result = s.result := rfl
@[simp] theorem State.seqStart_atStart (s : State) (bytes : List Byte) : (s.seqStart bytes).atStart = s.atStart := rfl
@[simp] theorem State.seqStart_client (s : State) (bytes : List Byte) : (s.seqStart bytes).client = s.client := rfl
@[simp] theorem State.seqStart_peerLine (s : State) (bytes : List Byte) : (s.seqStart bytes).peerLine = s.peerLine := rfl
@[simp] theorem State.seqStart_hostIn (s : State) (bytes : List Byte) : (s.seqStart bytes).hostIn = s.hostIn := rfl
@[simp] theorem State.seqStart_hostEvents (s : State) (bytes : List Byte) : (s.seqStart bytes).hostEvents = s.hostEvents := rfl

/-! ### txStart -/

@[simp] theorem State.txStart_cfg (s : State) (b : Byte) (ret : TxRet) : (s.txStart b ret).cfg = s.cfg := rfl
@[simp] theorem State.txStart_phase (s : State) (b : Byte) (ret : TxRet) : (s.txStart b ret).phase = .tx := rfl
@[simp] theorem State.txStart_txOut (s : State) (b : Byte) (ret : TxRet) : (s.txStart b ret).txOut = .low := rfl
@[simp] theorem State.txStart_readyOut (s : State) (b : Byte) (ret : TxRet) : (s.txStart b ret).readyOut = s.readyOut := rfl
@[simp] theorem State.txStart_rxPullup (s : State) (b : Byte) (ret : TxRet) : (s.txStart b ret).rxPullup = s.rxPullup := rfl
@[simp] theorem State.txStart_counter (s : State) (b : Byte) (ret : TxRet) : (s.txStart b ret).counter = 0 := rfl
@[simp] theorem State.txStart_cntRun (s : State) (b : Byte) (ret : TxRet) : (s.txStart b ret).cntRun = s.cntRun := rfl
@[simp] theorem State.txStart_ie (s : State) (b : Byte) (ret : TxRet) : (s.txStart b ret).ie = false := rfl
@[simp] theorem State.txStart_savedIe (s : State) (b : Byte) (ret : TxRet) : (s.txStart b ret).savedIe = s.ie := rfl
@[simp] theorem State.txStart_receiving (s : State) (b : Byte) (ret : TxRet) : (s.txStart b ret).receiving = s.receiving := rfl
@[simp] theorem State.txStart_fe (s : State) (b : Byte) (ret : TxRet) : (s.txStart b ret).fe = s.fe := rfl
@[simp] theorem State.txStart_rx (s : State) (b : Byte) (ret : TxRet) : (s.txStart b ret).rx = s.rx := rfl
@[simp] theorem State.txStart_tx (s : State) (b : Byte) (ret : TxRet) : (s.txStart b ret).tx = s.tx := rfl
@[simp] theorem State.txStart_windowStart (s : State) (b : Byte) (ret : TxRet) : (s.txStart b ret).windowStart = s.windowStart := rfl
@[simp] theorem State.txStart_prevRx (s : State) (b : Byte) (ret : TxRet) : (s.txStart b ret).prevRx = s.prevRx := rfl
@[simp] theorem State.txStart_rxAcc (s : State) (b : Byte) (ret : TxRet) : (s.txStart b ret).rxAcc = s.rxAcc := rfl
@[simp] theorem State.txStart_rxK (s : State) (b : Byte) (ret : TxRet) : (s.txStart b ret).rxK = s.rxK := rfl
@[simp] theorem State.txStart_txByte (s : State) (b : Byte) (ret : TxRet) : (s.txStart b ret).txByte = b := rfl
@[simp] theorem State.txStart_txSlot (s : State) (b : Byte) (ret : TxRet) : (s.txStart b ret).txSlot = 0 := rfl
@[simp] theorem State.txStart_txRet (s : State) (b : Byte) (ret : TxRet) : (s.txStart b ret).txRet = ret := rfl
@[simp] theorem State.txStart_pend (s : State) (b : Byte) (ret : TxRet) : (s.txStart b ret).pend = s.pend := rfl
@[simp] theorem State.txStart_port (s : State) (b : Byte) (ret : TxRet) : (s.txStart b ret).port = s.port := rfl
@[simp] theorem State.txStart_fault (s : State) (b : Byte) (ret : TxRet) : (s.txStart b ret).fault = s.fault := rfl
@[simp] theorem State.txStart_now (s : State) (b : Byte) (ret : TxRet) : (s.txStart b ret).now = s.now := rfl
@[simp] theorem State.txStart_result (s : State) (b : Byte) (ret : TxRet) : (s.txStart b ret).result = s.result := rfl
@[simp] theorem State.txStart_atStart (s : State) (b : Byte) (ret : TxRet) : (s.txStart b ret).atStart = s.atStart := rfl
@[simp] theorem State.txStart_client (s : State) (b : Byte) (ret : TxRet) : (s.txStart b ret).client = s.client := rfl
@[simp] theorem State.txStart_peerLine (s : State) (b : Byte) (ret : TxRet) : (s.txStart b ret).peerLine = s.peerLine := rfl
@[simp] theorem State.txStart_hostIn (s : State) (b : Byte) (ret : TxRet) : (s.txStart b ret).hostIn = s.hostIn := rfl
@[simp] theorem State.txStart_hostEvents (s : State) (b : Byte) (ret : TxRet) : (s.txStart b ret).hostEvents = s.hostEvents := rfl

/-! ### configurePins -/

@[simp] theorem State.configurePins_cfg (s : State) : (s.configurePins).cfg = s.cfg := rfl
@[simp] theorem State.configurePins_phase (s : State) : (s.configurePins).phase = s.phase := rfl
@[simp] theorem State.configurePins_txOut (s : State) : (s.configurePins).txOut = .high := rfl
@[simp] theorem State.configurePins_readyOut (s : State) : (s.configurePins).readyOut = .high := rfl
@[simp] theorem State.configurePins_rxPullup (s : State) : (s.configurePins).rxPullup = true := rfl
@[simp] theorem State.configurePins_counter (s : State) : (s.configurePins).counter = s.counter := rfl
@[simp] theorem State.configurePins_cntRun (s : State) : (s.configurePins).cntRun = true := rfl
@[simp] theorem State.configurePins_ie (s : State) : (s.configurePins).ie = s.ie := rfl
@[simp] theorem State.configurePins_savedIe (s : State) : (s.configurePins).savedIe = s.savedIe := rfl
@[simp] theorem State.configurePins_receiving (s : State) : (s.configurePins).receiving = s.receiving := rfl
@[simp] theorem State.configurePins_fe (s : State) : (s.configurePins).fe = s.fe := rfl
@[simp] theorem State.configurePins_rx (s : State) : (s.configurePins).rx = s.rx := rfl
@[simp] theorem State.configurePins_tx (s : State) : (s.configurePins).tx = s.tx := rfl
@[simp] theorem State.configurePins_windowStart (s : State) : (s.configurePins).windowStart = s.windowStart := rfl
@[simp] theorem State.configurePins_prevRx (s : State) : (s.configurePins).prevRx = s.prevRx := rfl
@[simp] theorem State.configurePins_rxAcc (s : State) : (s.configurePins).rxAcc = s.rxAcc := rfl
@[simp] theorem State.configurePins_rxK (s : State) : (s.configurePins).rxK = s.rxK := rfl
@[simp] theorem State.configurePins_txByte (s : State) : (s.configurePins).txByte = s.txByte := rfl
@[simp] theorem State.configurePins_txSlot (s : State) : (s.configurePins).txSlot = s.txSlot := rfl
@[simp] theorem State.configurePins_txRet (s : State) : (s.configurePins).txRet = s.txRet := rfl
@[simp] theorem State.configurePins_pend (s : State) : (s.configurePins).pend = s.pend := rfl
@[simp] theorem State.configurePins_port (s : State) : (s.configurePins).port = s.port := rfl
@[simp] theorem State.configurePins_fault (s : State) : (s.configurePins).fault = s.fault := rfl
@[simp] theorem State.configurePins_now (s : State) : (s.configurePins).now = s.now := rfl
@[simp] theorem State.configurePins_result (s : State) : (s.configurePins).result = s.result := rfl
@[simp] theorem State.configurePins_atStart (s : State) : (s.configurePins).atStart = s.atStart := rfl
@[simp] theorem State.configurePins_client (s : State) : (s.configurePins).client = s.client := rfl
@[simp] theorem State.configurePins_peerLine (s : State) : (s.configurePins).peerLine = s.peerLine := rfl
@[simp] theorem State.configurePins_hostIn (s : State) : (s.configurePins).hostIn = s.hostIn := rfl
@[simp] theorem State.configurePins_hostEvents (s : State) : (s.configurePins).hostEvents = s.hostEvents := rfl

/-! ### accept -/

@[simp] theorem State.accept_cfg (s : State) (i : Instr) (frame : List Byte) : (s.accept i frame).cfg = s.cfg := rfl
@[simp] theorem State.accept_phase (s : State) (i : Instr) (frame : List Byte) : (s.accept i frame).phase = s.phase := rfl
@[simp] theorem State.accept_txOut (s : State) (i : Instr) (frame : List Byte) : (s.accept i frame).txOut = s.txOut := rfl
@[simp] theorem State.accept_readyOut (s : State) (i : Instr) (frame : List Byte) : (s.accept i frame).readyOut = s.readyOut := rfl
@[simp] theorem State.accept_rxPullup (s : State) (i : Instr) (frame : List Byte) : (s.accept i frame).rxPullup = s.rxPullup := rfl
@[simp] theorem State.accept_counter (s : State) (i : Instr) (frame : List Byte) : (s.accept i frame).counter = s.counter := rfl
@[simp] theorem State.accept_cntRun (s : State) (i : Instr) (frame : List Byte) : (s.accept i frame).cntRun = s.cntRun := rfl
@[simp] theorem State.accept_ie (s : State) (i : Instr) (frame : List Byte) : (s.accept i frame).ie = s.ie := rfl
@[simp] theorem State.accept_savedIe (s : State) (i : Instr) (frame : List Byte) : (s.accept i frame).savedIe = s.savedIe := rfl
@[simp] theorem State.accept_receiving (s : State) (i : Instr) (frame : List Byte) : (s.accept i frame).receiving = s.receiving := rfl
@[simp] theorem State.accept_fe (s : State) (i : Instr) (frame : List Byte) : (s.accept i frame).fe = s.fe := rfl
@[simp] theorem State.accept_rx (s : State) (i : Instr) (frame : List Byte) : (s.accept i frame).rx = s.rx := rfl
@[simp] theorem State.accept_tx (s : State) (i : Instr) (frame : List Byte) : (s.accept i frame).tx = s.tx := rfl
@[simp] theorem State.accept_windowStart (s : State) (i : Instr) (frame : List Byte) : (s.accept i frame).windowStart = s.windowStart := rfl
@[simp] theorem State.accept_prevRx (s : State) (i : Instr) (frame : List Byte) : (s.accept i frame).prevRx = s.prevRx := rfl
@[simp] theorem State.accept_rxAcc (s : State) (i : Instr) (frame : List Byte) : (s.accept i frame).rxAcc = s.rxAcc := rfl
@[simp] theorem State.accept_rxK (s : State) (i : Instr) (frame : List Byte) : (s.accept i frame).rxK = s.rxK := rfl
@[simp] theorem State.accept_txByte (s : State) (i : Instr) (frame : List Byte) : (s.accept i frame).txByte = s.txByte := rfl
@[simp] theorem State.accept_txSlot (s : State) (i : Instr) (frame : List Byte) : (s.accept i frame).txSlot = s.txSlot := rfl
@[simp] theorem State.accept_txRet (s : State) (i : Instr) (frame : List Byte) : (s.accept i frame).txRet = s.txRet := rfl
@[simp] theorem State.accept_pend (s : State) (i : Instr) (frame : List Byte) : (s.accept i frame).pend = s.pend := rfl
@[simp] theorem State.accept_port (s : State) (i : Instr) (frame : List Byte) : (s.accept i frame).port = some { instr := i, frame := frame, stage := .new } := rfl
@[simp] theorem State.accept_fault (s : State) (i : Instr) (frame : List Byte) : (s.accept i frame).fault = s.fault := rfl
@[simp] theorem State.accept_now (s : State) (i : Instr) (frame : List Byte) : (s.accept i frame).now = s.now := rfl
@[simp] theorem State.accept_result (s : State) (i : Instr) (frame : List Byte) : (s.accept i frame).result = s.result := rfl
@[simp] theorem State.accept_atStart (s : State) (i : Instr) (frame : List Byte) : (s.accept i frame).atStart = s.atStart := rfl
@[simp] theorem State.accept_client (s : State) (i : Instr) (frame : List Byte) : (s.accept i frame).client = s.client := rfl
@[simp] theorem State.accept_peerLine (s : State) (i : Instr) (frame : List Byte) : (s.accept i frame).peerLine = s.peerLine := rfl
@[simp] theorem State.accept_hostIn (s : State) (i : Instr) (frame : List Byte) : (s.accept i frame).hostIn = s.hostIn := rfl
@[simp] theorem State.accept_hostEvents (s : State) (i : Instr) (frame : List Byte) : (s.accept i frame).hostEvents = s.hostEvents := rfl

/-! ### complete -/

@[simp] theorem State.complete_cfg (s : State) (r : Word32) : (s.complete r).cfg = s.cfg := rfl
@[simp] theorem State.complete_phase (s : State) (r : Word32) : (s.complete r).phase = s.phase := rfl
@[simp] theorem State.complete_txOut (s : State) (r : Word32) : (s.complete r).txOut = s.txOut := rfl
@[simp] theorem State.complete_readyOut (s : State) (r : Word32) : (s.complete r).readyOut = s.readyOut := rfl
@[simp] theorem State.complete_rxPullup (s : State) (r : Word32) : (s.complete r).rxPullup = s.rxPullup := rfl
@[simp] theorem State.complete_counter (s : State) (r : Word32) : (s.complete r).counter = s.counter := rfl
@[simp] theorem State.complete_cntRun (s : State) (r : Word32) : (s.complete r).cntRun = s.cntRun := rfl
@[simp] theorem State.complete_ie (s : State) (r : Word32) : (s.complete r).ie = s.ie := rfl
@[simp] theorem State.complete_savedIe (s : State) (r : Word32) : (s.complete r).savedIe = s.savedIe := rfl
@[simp] theorem State.complete_receiving (s : State) (r : Word32) : (s.complete r).receiving = s.receiving := rfl
@[simp] theorem State.complete_fe (s : State) (r : Word32) : (s.complete r).fe = s.fe := rfl
@[simp] theorem State.complete_rx (s : State) (r : Word32) : (s.complete r).rx = s.rx := rfl
@[simp] theorem State.complete_tx (s : State) (r : Word32) : (s.complete r).tx = s.tx := rfl
@[simp] theorem State.complete_windowStart (s : State) (r : Word32) : (s.complete r).windowStart = s.windowStart := rfl
@[simp] theorem State.complete_prevRx (s : State) (r : Word32) : (s.complete r).prevRx = s.prevRx := rfl
@[simp] theorem State.complete_rxAcc (s : State) (r : Word32) : (s.complete r).rxAcc = s.rxAcc := rfl
@[simp] theorem State.complete_rxK (s : State) (r : Word32) : (s.complete r).rxK = s.rxK := rfl
@[simp] theorem State.complete_txByte (s : State) (r : Word32) : (s.complete r).txByte = s.txByte := rfl
@[simp] theorem State.complete_txSlot (s : State) (r : Word32) : (s.complete r).txSlot = s.txSlot := rfl
@[simp] theorem State.complete_txRet (s : State) (r : Word32) : (s.complete r).txRet = s.txRet := rfl
@[simp] theorem State.complete_pend (s : State) (r : Word32) : (s.complete r).pend = s.pend := rfl
@[simp] theorem State.complete_port (s : State) (r : Word32) : (s.complete r).port = none := rfl
@[simp] theorem State.complete_fault (s : State) (r : Word32) : (s.complete r).fault = s.fault := rfl
@[simp] theorem State.complete_now (s : State) (r : Word32) : (s.complete r).now = s.now := rfl
@[simp] theorem State.complete_result (s : State) (r : Word32) : (s.complete r).result = some r := rfl
@[simp] theorem State.complete_atStart (s : State) (r : Word32) : (s.complete r).atStart = s.atStart := rfl
@[simp] theorem State.complete_client (s : State) (r : Word32) : (s.complete r).client = s.client := rfl
@[simp] theorem State.complete_peerLine (s : State) (r : Word32) : (s.complete r).peerLine = s.peerLine := rfl
@[simp] theorem State.complete_hostIn (s : State) (r : Word32) : (s.complete r).hostIn = s.hostIn := rfl
@[simp] theorem State.complete_hostEvents (s : State) (r : Word32) : (s.complete r).hostEvents = s.hostEvents := rfl

/-! ### setStage -/

@[simp] theorem State.setStage_cfg (s : State) (p : PortOp) (stage : Stage) : (s.setStage p stage).cfg = s.cfg := rfl
@[simp] theorem State.setStage_phase (s : State) (p : PortOp) (stage : Stage) : (s.setStage p stage).phase = s.phase := rfl
@[simp] theorem State.setStage_txOut (s : State) (p : PortOp) (stage : Stage) : (s.setStage p stage).txOut = s.txOut := rfl
@[simp] theorem State.setStage_readyOut (s : State) (p : PortOp) (stage : Stage) : (s.setStage p stage).readyOut = s.readyOut := rfl
@[simp] theorem State.setStage_rxPullup (s : State) (p : PortOp) (stage : Stage) : (s.setStage p stage).rxPullup = s.rxPullup := rfl
@[simp] theorem State.setStage_counter (s : State) (p : PortOp) (stage : Stage) : (s.setStage p stage).counter = s.counter := rfl
@[simp] theorem State.setStage_cntRun (s : State) (p : PortOp) (stage : Stage) : (s.setStage p stage).cntRun = s.cntRun := rfl
@[simp] theorem State.setStage_ie (s : State) (p : PortOp) (stage : Stage) : (s.setStage p stage).ie = s.ie := rfl
@[simp] theorem State.setStage_savedIe (s : State) (p : PortOp) (stage : Stage) : (s.setStage p stage).savedIe = s.savedIe := rfl
@[simp] theorem State.setStage_receiving (s : State) (p : PortOp) (stage : Stage) : (s.setStage p stage).receiving = s.receiving := rfl
@[simp] theorem State.setStage_fe (s : State) (p : PortOp) (stage : Stage) : (s.setStage p stage).fe = s.fe := rfl
@[simp] theorem State.setStage_rx (s : State) (p : PortOp) (stage : Stage) : (s.setStage p stage).rx = s.rx := rfl
@[simp] theorem State.setStage_tx (s : State) (p : PortOp) (stage : Stage) : (s.setStage p stage).tx = s.tx := rfl
@[simp] theorem State.setStage_windowStart (s : State) (p : PortOp) (stage : Stage) : (s.setStage p stage).windowStart = s.windowStart := rfl
@[simp] theorem State.setStage_prevRx (s : State) (p : PortOp) (stage : Stage) : (s.setStage p stage).prevRx = s.prevRx := rfl
@[simp] theorem State.setStage_rxAcc (s : State) (p : PortOp) (stage : Stage) : (s.setStage p stage).rxAcc = s.rxAcc := rfl
@[simp] theorem State.setStage_rxK (s : State) (p : PortOp) (stage : Stage) : (s.setStage p stage).rxK = s.rxK := rfl
@[simp] theorem State.setStage_txByte (s : State) (p : PortOp) (stage : Stage) : (s.setStage p stage).txByte = s.txByte := rfl
@[simp] theorem State.setStage_txSlot (s : State) (p : PortOp) (stage : Stage) : (s.setStage p stage).txSlot = s.txSlot := rfl
@[simp] theorem State.setStage_txRet (s : State) (p : PortOp) (stage : Stage) : (s.setStage p stage).txRet = s.txRet := rfl
@[simp] theorem State.setStage_pend (s : State) (p : PortOp) (stage : Stage) : (s.setStage p stage).pend = s.pend := rfl
@[simp] theorem State.setStage_port (s : State) (p : PortOp) (stage : Stage) : (s.setStage p stage).port = some { p with stage := stage } := rfl
@[simp] theorem State.setStage_fault (s : State) (p : PortOp) (stage : Stage) : (s.setStage p stage).fault = s.fault := rfl
@[simp] theorem State.setStage_now (s : State) (p : PortOp) (stage : Stage) : (s.setStage p stage).now = s.now := rfl
@[simp] theorem State.setStage_result (s : State) (p : PortOp) (stage : Stage) : (s.setStage p stage).result = s.result := rfl
@[simp] theorem State.setStage_atStart (s : State) (p : PortOp) (stage : Stage) : (s.setStage p stage).atStart = s.atStart := rfl
@[simp] theorem State.setStage_client (s : State) (p : PortOp) (stage : Stage) : (s.setStage p stage).client = s.client := rfl
@[simp] theorem State.setStage_peerLine (s : State) (p : PortOp) (stage : Stage) : (s.setStage p stage).peerLine = s.peerLine := rfl
@[simp] theorem State.setStage_hostIn (s : State) (p : PortOp) (stage : Stage) : (s.setStage p stage).hostIn = s.hostIn := rfl
@[simp] theorem State.setStage_hostEvents (s : State) (p : PortOp) (stage : Stage) : (s.setStage p stage).hostEvents = s.hostEvents := rfl

/-! ### raise -/

@[simp] theorem State.raise_cfg (s : State) (code : FaultCode) (word : Word16) (len : Option Nat) : (s.raise code word len).cfg = s.cfg := rfl
@[simp] theorem State.raise_phase (s : State) (code : FaultCode) (word : Word16) (len : Option Nat) : (s.raise code word len).phase = s.phase := rfl
@[simp] theorem State.raise_txOut (s : State) (code : FaultCode) (word : Word16) (len : Option Nat) : (s.raise code word len).txOut = s.txOut := rfl
@[simp] theorem State.raise_readyOut (s : State) (code : FaultCode) (word : Word16) (len : Option Nat) : (s.raise code word len).readyOut = s.readyOut := rfl
@[simp] theorem State.raise_rxPullup (s : State) (code : FaultCode) (word : Word16) (len : Option Nat) : (s.raise code word len).rxPullup = s.rxPullup := rfl
@[simp] theorem State.raise_counter (s : State) (code : FaultCode) (word : Word16) (len : Option Nat) : (s.raise code word len).counter = s.counter := rfl
@[simp] theorem State.raise_cntRun (s : State) (code : FaultCode) (word : Word16) (len : Option Nat) : (s.raise code word len).cntRun = s.cntRun := rfl
@[simp] theorem State.raise_ie (s : State) (code : FaultCode) (word : Word16) (len : Option Nat) : (s.raise code word len).ie = s.ie := rfl
@[simp] theorem State.raise_savedIe (s : State) (code : FaultCode) (word : Word16) (len : Option Nat) : (s.raise code word len).savedIe = s.savedIe := rfl
@[simp] theorem State.raise_receiving (s : State) (code : FaultCode) (word : Word16) (len : Option Nat) : (s.raise code word len).receiving = s.receiving := rfl
@[simp] theorem State.raise_fe (s : State) (code : FaultCode) (word : Word16) (len : Option Nat) : (s.raise code word len).fe = s.fe := rfl
@[simp] theorem State.raise_rx (s : State) (code : FaultCode) (word : Word16) (len : Option Nat) : (s.raise code word len).rx = s.rx := rfl
@[simp] theorem State.raise_tx (s : State) (code : FaultCode) (word : Word16) (len : Option Nat) : (s.raise code word len).tx = s.tx := rfl
@[simp] theorem State.raise_windowStart (s : State) (code : FaultCode) (word : Word16) (len : Option Nat) : (s.raise code word len).windowStart = s.windowStart := rfl
@[simp] theorem State.raise_prevRx (s : State) (code : FaultCode) (word : Word16) (len : Option Nat) : (s.raise code word len).prevRx = s.prevRx := rfl
@[simp] theorem State.raise_rxAcc (s : State) (code : FaultCode) (word : Word16) (len : Option Nat) : (s.raise code word len).rxAcc = s.rxAcc := rfl
@[simp] theorem State.raise_rxK (s : State) (code : FaultCode) (word : Word16) (len : Option Nat) : (s.raise code word len).rxK = s.rxK := rfl
@[simp] theorem State.raise_txByte (s : State) (code : FaultCode) (word : Word16) (len : Option Nat) : (s.raise code word len).txByte = s.txByte := rfl
@[simp] theorem State.raise_txSlot (s : State) (code : FaultCode) (word : Word16) (len : Option Nat) : (s.raise code word len).txSlot = s.txSlot := rfl
@[simp] theorem State.raise_txRet (s : State) (code : FaultCode) (word : Word16) (len : Option Nat) : (s.raise code word len).txRet = s.txRet := rfl
@[simp] theorem State.raise_pend (s : State) (code : FaultCode) (word : Word16) (len : Option Nat) : (s.raise code word len).pend = s.pend := rfl
@[simp] theorem State.raise_port (s : State) (code : FaultCode) (word : Word16) (len : Option Nat) : (s.raise code word len).port = none := rfl
@[simp] theorem State.raise_fault (s : State) (code : FaultCode) (word : Word16) (len : Option Nat) : (s.raise code word len).fault = some { code := code, word := word, len := len } := rfl
@[simp] theorem State.raise_now (s : State) (code : FaultCode) (word : Word16) (len : Option Nat) : (s.raise code word len).now = s.now := rfl
@[simp] theorem State.raise_result (s : State) (code : FaultCode) (word : Word16) (len : Option Nat) : (s.raise code word len).result = s.result := rfl
@[simp] theorem State.raise_atStart (s : State) (code : FaultCode) (word : Word16) (len : Option Nat) : (s.raise code word len).atStart = s.atStart := rfl
@[simp] theorem State.raise_client (s : State) (code : FaultCode) (word : Word16) (len : Option Nat) : (s.raise code word len).client = s.client := rfl
@[simp] theorem State.raise_peerLine (s : State) (code : FaultCode) (word : Word16) (len : Option Nat) : (s.raise code word len).peerLine = s.peerLine := rfl
@[simp] theorem State.raise_hostIn (s : State) (code : FaultCode) (word : Word16) (len : Option Nat) : (s.raise code word len).hostIn = s.hostIn := rfl
@[simp] theorem State.raise_hostEvents (s : State) (code : FaultCode) (word : Word16) (len : Option Nat) : (s.raise code word len).hostEvents = s.hostEvents := rfl

/-! ### driveChar -/

@[simp] theorem State.driveChar_cfg (s : State) (b : Byte) : (s.driveChar b).cfg = s.cfg := rfl
@[simp] theorem State.driveChar_phase (s : State) (b : Byte) : (s.driveChar b).phase = s.phase := rfl
@[simp] theorem State.driveChar_txOut (s : State) (b : Byte) : (s.driveChar b).txOut = s.txOut := rfl
@[simp] theorem State.driveChar_readyOut (s : State) (b : Byte) : (s.driveChar b).readyOut = s.readyOut := rfl
@[simp] theorem State.driveChar_rxPullup (s : State) (b : Byte) : (s.driveChar b).rxPullup = s.rxPullup := rfl
@[simp] theorem State.driveChar_counter (s : State) (b : Byte) : (s.driveChar b).counter = s.counter := rfl
@[simp] theorem State.driveChar_cntRun (s : State) (b : Byte) : (s.driveChar b).cntRun = s.cntRun := rfl
@[simp] theorem State.driveChar_ie (s : State) (b : Byte) : (s.driveChar b).ie = s.ie := rfl
@[simp] theorem State.driveChar_savedIe (s : State) (b : Byte) : (s.driveChar b).savedIe = s.savedIe := rfl
@[simp] theorem State.driveChar_receiving (s : State) (b : Byte) : (s.driveChar b).receiving = s.receiving := rfl
@[simp] theorem State.driveChar_fe (s : State) (b : Byte) : (s.driveChar b).fe = s.fe := rfl
@[simp] theorem State.driveChar_rx (s : State) (b : Byte) : (s.driveChar b).rx = s.rx := rfl
@[simp] theorem State.driveChar_tx (s : State) (b : Byte) : (s.driveChar b).tx = s.tx := rfl
@[simp] theorem State.driveChar_windowStart (s : State) (b : Byte) : (s.driveChar b).windowStart = s.windowStart := rfl
@[simp] theorem State.driveChar_prevRx (s : State) (b : Byte) : (s.driveChar b).prevRx = s.prevRx := rfl
@[simp] theorem State.driveChar_rxAcc (s : State) (b : Byte) : (s.driveChar b).rxAcc = s.rxAcc := rfl
@[simp] theorem State.driveChar_rxK (s : State) (b : Byte) : (s.driveChar b).rxK = s.rxK := rfl
@[simp] theorem State.driveChar_txByte (s : State) (b : Byte) : (s.driveChar b).txByte = s.txByte := rfl
@[simp] theorem State.driveChar_txSlot (s : State) (b : Byte) : (s.driveChar b).txSlot = s.txSlot := rfl
@[simp] theorem State.driveChar_txRet (s : State) (b : Byte) : (s.driveChar b).txRet = s.txRet := rfl
@[simp] theorem State.driveChar_pend (s : State) (b : Byte) : (s.driveChar b).pend = s.pend := rfl
@[simp] theorem State.driveChar_port (s : State) (b : Byte) : (s.driveChar b).port = s.port := rfl
@[simp] theorem State.driveChar_fault (s : State) (b : Byte) : (s.driveChar b).fault = s.fault := rfl
@[simp] theorem State.driveChar_now (s : State) (b : Byte) : (s.driveChar b).now = s.now := rfl
@[simp] theorem State.driveChar_result (s : State) (b : Byte) : (s.driveChar b).result = s.result := rfl
@[simp] theorem State.driveChar_atStart (s : State) (b : Byte) : (s.driveChar b).atStart = s.atStart := rfl
@[simp] theorem State.driveChar_client (s : State) (b : Byte) : (s.driveChar b).client = s.client := rfl
@[simp] theorem State.driveChar_peerLine (s : State) (b : Byte) : (s.driveChar b).peerLine = charLevels s.cfg b ++ s.peerLine := rfl
@[simp] theorem State.driveChar_hostIn (s : State) (b : Byte) : (s.driveChar b).hostIn = s.hostIn := rfl
@[simp] theorem State.driveChar_hostEvents (s : State) (b : Byte) : (s.driveChar b).hostEvents = s.hostEvents := rfl

/-! ### report -/

@[simp] theorem State.report_cfg (s : State) (e : Event) : (s.report e).cfg = s.cfg := rfl
@[simp] theorem State.report_phase (s : State) (e : Event) : (s.report e).phase = s.phase := rfl
@[simp] theorem State.report_txOut (s : State) (e : Event) : (s.report e).txOut = s.txOut := rfl
@[simp] theorem State.report_readyOut (s : State) (e : Event) : (s.report e).readyOut = s.readyOut := rfl
@[simp] theorem State.report_rxPullup (s : State) (e : Event) : (s.report e).rxPullup = s.rxPullup := rfl
@[simp] theorem State.report_counter (s : State) (e : Event) : (s.report e).counter = s.counter := rfl
@[simp] theorem State.report_cntRun (s : State) (e : Event) : (s.report e).cntRun = s.cntRun := rfl
@[simp] theorem State.report_ie (s : State) (e : Event) : (s.report e).ie = s.ie := rfl
@[simp] theorem State.report_savedIe (s : State) (e : Event) : (s.report e).savedIe = s.savedIe := rfl
@[simp] theorem State.report_receiving (s : State) (e : Event) : (s.report e).receiving = s.receiving := rfl
@[simp] theorem State.report_fe (s : State) (e : Event) : (s.report e).fe = s.fe := rfl
@[simp] theorem State.report_rx (s : State) (e : Event) : (s.report e).rx = s.rx := rfl
@[simp] theorem State.report_tx (s : State) (e : Event) : (s.report e).tx = s.tx := rfl
@[simp] theorem State.report_windowStart (s : State) (e : Event) : (s.report e).windowStart = s.windowStart := rfl
@[simp] theorem State.report_prevRx (s : State) (e : Event) : (s.report e).prevRx = s.prevRx := rfl
@[simp] theorem State.report_rxAcc (s : State) (e : Event) : (s.report e).rxAcc = s.rxAcc := rfl
@[simp] theorem State.report_rxK (s : State) (e : Event) : (s.report e).rxK = s.rxK := rfl
@[simp] theorem State.report_txByte (s : State) (e : Event) : (s.report e).txByte = s.txByte := rfl
@[simp] theorem State.report_txSlot (s : State) (e : Event) : (s.report e).txSlot = s.txSlot := rfl
@[simp] theorem State.report_txRet (s : State) (e : Event) : (s.report e).txRet = s.txRet := rfl
@[simp] theorem State.report_pend (s : State) (e : Event) : (s.report e).pend = s.pend := rfl
@[simp] theorem State.report_port (s : State) (e : Event) : (s.report e).port = s.port := rfl
@[simp] theorem State.report_fault (s : State) (e : Event) : (s.report e).fault = s.fault := rfl
@[simp] theorem State.report_now (s : State) (e : Event) : (s.report e).now = s.now := rfl
@[simp] theorem State.report_result (s : State) (e : Event) : (s.report e).result = s.result := rfl
@[simp] theorem State.report_atStart (s : State) (e : Event) : (s.report e).atStart = s.atStart := rfl
@[simp] theorem State.report_client (s : State) (e : Event) : (s.report e).client = s.client := rfl
@[simp] theorem State.report_peerLine (s : State) (e : Event) : (s.report e).peerLine = s.peerLine := rfl
@[simp] theorem State.report_hostIn (s : State) (e : Event) : (s.report e).hostIn = s.hostIn := rfl
@[simp] theorem State.report_hostEvents (s : State) (e : Event) : (s.report e).hostEvents = s.hostEvents ++ [e] := rfl

/-! ### faultedTick -/

@[simp] theorem State.faultedTick_cfg (s : State) : (s.faultedTick).cfg = s.cfg := rfl
@[simp] theorem State.faultedTick_phase (s : State) : (s.faultedTick).phase = s.phase := rfl
@[simp] theorem State.faultedTick_txOut (s : State) : (s.faultedTick).txOut = s.txOut := rfl
@[simp] theorem State.faultedTick_readyOut (s : State) : (s.faultedTick).readyOut = s.readyOut := rfl
@[simp] theorem State.faultedTick_rxPullup (s : State) : (s.faultedTick).rxPullup = s.rxPullup := rfl
@[simp] theorem State.faultedTick_counter (s : State) : (s.faultedTick).counter = s.counter := rfl
@[simp] theorem State.faultedTick_cntRun (s : State) : (s.faultedTick).cntRun = s.cntRun := rfl
@[simp] theorem State.faultedTick_ie (s : State) : (s.faultedTick).ie = s.ie := rfl
@[simp] theorem State.faultedTick_savedIe (s : State) : (s.faultedTick).savedIe = s.savedIe := rfl
@[simp] theorem State.faultedTick_receiving (s : State) : (s.faultedTick).receiving = s.receiving := rfl
@[simp] theorem State.faultedTick_fe (s : State) : (s.faultedTick).fe = s.fe := rfl
@[simp] theorem State.faultedTick_rx (s : State) : (s.faultedTick).rx = s.rx := rfl
@[simp] theorem State.faultedTick_tx (s : State) : (s.faultedTick).tx = s.tx := rfl
@[simp] theorem State.faultedTick_windowStart (s : State) : (s.faultedTick).windowStart = s.windowStart := rfl
@[simp] theorem State.faultedTick_prevRx (s : State) : (s.faultedTick).prevRx = s.prevRx := rfl
@[simp] theorem State.faultedTick_rxAcc (s : State) : (s.faultedTick).rxAcc = s.rxAcc := rfl
@[simp] theorem State.faultedTick_rxK (s : State) : (s.faultedTick).rxK = s.rxK := rfl
@[simp] theorem State.faultedTick_txByte (s : State) : (s.faultedTick).txByte = s.txByte := rfl
@[simp] theorem State.faultedTick_txSlot (s : State) : (s.faultedTick).txSlot = s.txSlot := rfl
@[simp] theorem State.faultedTick_txRet (s : State) : (s.faultedTick).txRet = s.txRet := rfl
@[simp] theorem State.faultedTick_pend (s : State) : (s.faultedTick).pend = s.pend := rfl
@[simp] theorem State.faultedTick_port (s : State) : (s.faultedTick).port = s.port := rfl
@[simp] theorem State.faultedTick_fault (s : State) : (s.faultedTick).fault = s.fault := rfl
@[simp] theorem State.faultedTick_now (s : State) : (s.faultedTick).now = s.now + 1 := rfl
@[simp] theorem State.faultedTick_result (s : State) : (s.faultedTick).result = none := rfl
@[simp] theorem State.faultedTick_atStart (s : State) : (s.faultedTick).atStart = s.atStart := rfl
@[simp] theorem State.faultedTick_client (s : State) : (s.faultedTick).client = s.client := rfl
@[simp] theorem State.faultedTick_peerLine (s : State) : (s.faultedTick).peerLine = s.peerLine.tail := rfl
@[simp] theorem State.faultedTick_hostIn (s : State) : (s.faultedTick).hostIn = s.hostIn := rfl
@[simp] theorem State.faultedTick_hostEvents (s : State) : (s.faultedTick).hostEvents = s.hostEvents := rfl

/-! ### beginTick -/

@[simp] theorem State.beginTick_cfg (s : State) : (s.beginTick).cfg = s.cfg := rfl
@[simp] theorem State.beginTick_phase (s : State) : (s.beginTick).phase = s.phase := rfl
@[simp] theorem State.beginTick_txOut (s : State) : (s.beginTick).txOut = s.txOut := rfl
@[simp] theorem State.beginTick_readyOut (s : State) : (s.beginTick).readyOut = s.readyOut := rfl
@[simp] theorem State.beginTick_rxPullup (s : State) : (s.beginTick).rxPullup = s.rxPullup := rfl
@[simp] theorem State.beginTick_counter (s : State) : (s.beginTick).counter = s.counter := rfl
@[simp] theorem State.beginTick_cntRun (s : State) : (s.beginTick).cntRun = s.cntRun := rfl
@[simp] theorem State.beginTick_ie (s : State) : (s.beginTick).ie = s.ie := rfl
@[simp] theorem State.beginTick_savedIe (s : State) : (s.beginTick).savedIe = s.savedIe := rfl
@[simp] theorem State.beginTick_receiving (s : State) : (s.beginTick).receiving = s.receiving := rfl
@[simp] theorem State.beginTick_fe (s : State) : (s.beginTick).fe = s.fe := rfl
@[simp] theorem State.beginTick_rx (s : State) : (s.beginTick).rx = s.rx := rfl
@[simp] theorem State.beginTick_tx (s : State) : (s.beginTick).tx = s.tx := rfl
@[simp] theorem State.beginTick_windowStart (s : State) : (s.beginTick).windowStart = s.windowStart := rfl
@[simp] theorem State.beginTick_prevRx (s : State) : (s.beginTick).prevRx = s.prevRx := rfl
@[simp] theorem State.beginTick_rxAcc (s : State) : (s.beginTick).rxAcc = s.rxAcc := rfl
@[simp] theorem State.beginTick_rxK (s : State) : (s.beginTick).rxK = s.rxK := rfl
@[simp] theorem State.beginTick_txByte (s : State) : (s.beginTick).txByte = s.txByte := rfl
@[simp] theorem State.beginTick_txSlot (s : State) : (s.beginTick).txSlot = s.txSlot := rfl
@[simp] theorem State.beginTick_txRet (s : State) : (s.beginTick).txRet = s.txRet := rfl
@[simp] theorem State.beginTick_pend (s : State) : (s.beginTick).pend = s.pend := rfl
@[simp] theorem State.beginTick_port (s : State) : (s.beginTick).port = s.port := rfl
@[simp] theorem State.beginTick_fault (s : State) : (s.beginTick).fault = s.fault := rfl
@[simp] theorem State.beginTick_now (s : State) : (s.beginTick).now = s.now := rfl
@[simp] theorem State.beginTick_result (s : State) : (s.beginTick).result = none := rfl
@[simp] theorem State.beginTick_atStart (s : State) : (s.beginTick).atStart = { phase := s.phase, receiving := s.receiving, pend := s.pend } := rfl
@[simp] theorem State.beginTick_client (s : State) : (s.beginTick).client = s.client := rfl
@[simp] theorem State.beginTick_peerLine (s : State) : (s.beginTick).peerLine = s.peerLine := rfl
@[simp] theorem State.beginTick_hostIn (s : State) : (s.beginTick).hostIn = s.hostIn := rfl
@[simp] theorem State.beginTick_hostEvents (s : State) : (s.beginTick).hostEvents = s.hostEvents := rfl

/-! ### presentNext -/

@[simp] theorem State.presentNext_cfg (s : State) (word : Word16) (payload : List Byte) : (s.presentNext word payload).cfg = s.cfg := rfl
@[simp] theorem State.presentNext_phase (s : State) (word : Word16) (payload : List Byte) : (s.presentNext word payload).phase = s.phase := rfl
@[simp] theorem State.presentNext_txOut (s : State) (word : Word16) (payload : List Byte) : (s.presentNext word payload).txOut = s.txOut := rfl
@[simp] theorem State.presentNext_readyOut (s : State) (word : Word16) (payload : List Byte) : (s.presentNext word payload).readyOut = s.readyOut := rfl
@[simp] theorem State.presentNext_rxPullup (s : State) (word : Word16) (payload : List Byte) : (s.presentNext word payload).rxPullup = s.rxPullup := rfl
@[simp] theorem State.presentNext_counter (s : State) (word : Word16) (payload : List Byte) : (s.presentNext word payload).counter = s.counter := rfl
@[simp] theorem State.presentNext_cntRun (s : State) (word : Word16) (payload : List Byte) : (s.presentNext word payload).cntRun = s.cntRun := rfl
@[simp] theorem State.presentNext_ie (s : State) (word : Word16) (payload : List Byte) : (s.presentNext word payload).ie = s.ie := rfl
@[simp] theorem State.presentNext_savedIe (s : State) (word : Word16) (payload : List Byte) : (s.presentNext word payload).savedIe = s.savedIe := rfl
@[simp] theorem State.presentNext_receiving (s : State) (word : Word16) (payload : List Byte) : (s.presentNext word payload).receiving = s.receiving := rfl
@[simp] theorem State.presentNext_fe (s : State) (word : Word16) (payload : List Byte) : (s.presentNext word payload).fe = s.fe := rfl
@[simp] theorem State.presentNext_rx (s : State) (word : Word16) (payload : List Byte) : (s.presentNext word payload).rx = s.rx := rfl
@[simp] theorem State.presentNext_tx (s : State) (word : Word16) (payload : List Byte) : (s.presentNext word payload).tx = s.tx := rfl
@[simp] theorem State.presentNext_windowStart (s : State) (word : Word16) (payload : List Byte) : (s.presentNext word payload).windowStart = s.windowStart := rfl
@[simp] theorem State.presentNext_prevRx (s : State) (word : Word16) (payload : List Byte) : (s.presentNext word payload).prevRx = s.prevRx := rfl
@[simp] theorem State.presentNext_rxAcc (s : State) (word : Word16) (payload : List Byte) : (s.presentNext word payload).rxAcc = s.rxAcc := rfl
@[simp] theorem State.presentNext_rxK (s : State) (word : Word16) (payload : List Byte) : (s.presentNext word payload).rxK = s.rxK := rfl
@[simp] theorem State.presentNext_txByte (s : State) (word : Word16) (payload : List Byte) : (s.presentNext word payload).txByte = s.txByte := rfl
@[simp] theorem State.presentNext_txSlot (s : State) (word : Word16) (payload : List Byte) : (s.presentNext word payload).txSlot = s.txSlot := rfl
@[simp] theorem State.presentNext_txRet (s : State) (word : Word16) (payload : List Byte) : (s.presentNext word payload).txRet = s.txRet := rfl
@[simp] theorem State.presentNext_pend (s : State) (word : Word16) (payload : List Byte) : (s.presentNext word payload).pend = s.pend := rfl
@[simp] theorem State.presentNext_port (s : State) (word : Word16) (payload : List Byte) : (s.presentNext word payload).port = none := rfl
@[simp] theorem State.presentNext_fault (s : State) (word : Word16) (payload : List Byte) : (s.presentNext word payload).fault = none := rfl
@[simp] theorem State.presentNext_now (s : State) (word : Word16) (payload : List Byte) : (s.presentNext word payload).now = s.now := rfl
@[simp] theorem State.presentNext_result (s : State) (word : Word16) (payload : List Byte) : (s.presentNext word payload).result = s.result := rfl
@[simp] theorem State.presentNext_atStart (s : State) (word : Word16) (payload : List Byte) : (s.presentNext word payload).atStart = s.atStart := rfl
@[simp] theorem State.presentNext_client (s : State) (word : Word16) (payload : List Byte) : (s.presentNext word payload).client = .request s.now word payload :: s.client := rfl
@[simp] theorem State.presentNext_peerLine (s : State) (word : Word16) (payload : List Byte) : (s.presentNext word payload).peerLine = s.peerLine := rfl
@[simp] theorem State.presentNext_hostIn (s : State) (word : Word16) (payload : List Byte) : (s.presentNext word payload).hostIn = s.hostIn := rfl
@[simp] theorem State.presentNext_hostEvents (s : State) (word : Word16) (payload : List Byte) : (s.presentNext word payload).hostEvents = s.hostEvents := rfl

/-! ### withProgram -/

@[simp] theorem State.withProgram_cfg (s : State) (items : List ClientItem) : (s.withProgram items).cfg = s.cfg := rfl
@[simp] theorem State.withProgram_phase (s : State) (items : List ClientItem) : (s.withProgram items).phase = s.phase := rfl
@[simp] theorem State.withProgram_txOut (s : State) (items : List ClientItem) : (s.withProgram items).txOut = s.txOut := rfl
@[simp] theorem State.withProgram_readyOut (s : State) (items : List ClientItem) : (s.withProgram items).readyOut = s.readyOut := rfl
@[simp] theorem State.withProgram_rxPullup (s : State) (items : List ClientItem) : (s.withProgram items).rxPullup = s.rxPullup := rfl
@[simp] theorem State.withProgram_counter (s : State) (items : List ClientItem) : (s.withProgram items).counter = s.counter := rfl
@[simp] theorem State.withProgram_cntRun (s : State) (items : List ClientItem) : (s.withProgram items).cntRun = s.cntRun := rfl
@[simp] theorem State.withProgram_ie (s : State) (items : List ClientItem) : (s.withProgram items).ie = s.ie := rfl
@[simp] theorem State.withProgram_savedIe (s : State) (items : List ClientItem) : (s.withProgram items).savedIe = s.savedIe := rfl
@[simp] theorem State.withProgram_receiving (s : State) (items : List ClientItem) : (s.withProgram items).receiving = s.receiving := rfl
@[simp] theorem State.withProgram_fe (s : State) (items : List ClientItem) : (s.withProgram items).fe = s.fe := rfl
@[simp] theorem State.withProgram_rx (s : State) (items : List ClientItem) : (s.withProgram items).rx = s.rx := rfl
@[simp] theorem State.withProgram_tx (s : State) (items : List ClientItem) : (s.withProgram items).tx = s.tx := rfl
@[simp] theorem State.withProgram_windowStart (s : State) (items : List ClientItem) : (s.withProgram items).windowStart = s.windowStart := rfl
@[simp] theorem State.withProgram_prevRx (s : State) (items : List ClientItem) : (s.withProgram items).prevRx = s.prevRx := rfl
@[simp] theorem State.withProgram_rxAcc (s : State) (items : List ClientItem) : (s.withProgram items).rxAcc = s.rxAcc := rfl
@[simp] theorem State.withProgram_rxK (s : State) (items : List ClientItem) : (s.withProgram items).rxK = s.rxK := rfl
@[simp] theorem State.withProgram_txByte (s : State) (items : List ClientItem) : (s.withProgram items).txByte = s.txByte := rfl
@[simp] theorem State.withProgram_txSlot (s : State) (items : List ClientItem) : (s.withProgram items).txSlot = s.txSlot := rfl
@[simp] theorem State.withProgram_txRet (s : State) (items : List ClientItem) : (s.withProgram items).txRet = s.txRet := rfl
@[simp] theorem State.withProgram_pend (s : State) (items : List ClientItem) : (s.withProgram items).pend = s.pend := rfl
@[simp] theorem State.withProgram_port (s : State) (items : List ClientItem) : (s.withProgram items).port = s.port := rfl
@[simp] theorem State.withProgram_fault (s : State) (items : List ClientItem) : (s.withProgram items).fault = s.fault := rfl
@[simp] theorem State.withProgram_now (s : State) (items : List ClientItem) : (s.withProgram items).now = s.now := rfl
@[simp] theorem State.withProgram_result (s : State) (items : List ClientItem) : (s.withProgram items).result = s.result := rfl
@[simp] theorem State.withProgram_atStart (s : State) (items : List ClientItem) : (s.withProgram items).atStart = s.atStart := rfl
@[simp] theorem State.withProgram_client (s : State) (items : List ClientItem) : (s.withProgram items).client = s.client ++ items := rfl
@[simp] theorem State.withProgram_peerLine (s : State) (items : List ClientItem) : (s.withProgram items).peerLine = s.peerLine := rfl
@[simp] theorem State.withProgram_hostIn (s : State) (items : List ClientItem) : (s.withProgram items).hostIn = s.hostIn := rfl
@[simp] theorem State.withProgram_hostEvents (s : State) (items : List ClientItem) : (s.withProgram items).hostEvents = s.hostEvents := rfl

/-! ### endTick -/

@[simp] theorem State.endTick_cfg (start s : State) : (start.endTick s).cfg = s.cfg := rfl
@[simp] theorem State.endTick_phase (start s : State) : (start.endTick s).phase = s.phase := rfl
@[simp] theorem State.endTick_txOut (start s : State) : (start.endTick s).txOut = s.txOut := rfl
@[simp] theorem State.endTick_readyOut (start s : State) : (start.endTick s).readyOut = s.readyOut := rfl
@[simp] theorem State.endTick_rxPullup (start s : State) : (start.endTick s).rxPullup = s.rxPullup := rfl
@[simp] theorem State.endTick_counter (start s : State) : (start.endTick s).counter = if start.cntRun then (s.counter + 1) % 2 ^ s.cfg.counterWidth else start.counter := rfl
@[simp] theorem State.endTick_cntRun (start s : State) : (start.endTick s).cntRun = s.cntRun := rfl
@[simp] theorem State.endTick_ie (start s : State) : (start.endTick s).ie = s.ie := rfl
@[simp] theorem State.endTick_savedIe (start s : State) : (start.endTick s).savedIe = s.savedIe := rfl
@[simp] theorem State.endTick_receiving (start s : State) : (start.endTick s).receiving = s.receiving := rfl
@[simp] theorem State.endTick_fe (start s : State) : (start.endTick s).fe = s.fe := rfl
@[simp] theorem State.endTick_rx (start s : State) : (start.endTick s).rx = s.rx := rfl
@[simp] theorem State.endTick_tx (start s : State) : (start.endTick s).tx = s.tx := rfl
@[simp] theorem State.endTick_windowStart (start s : State) : (start.endTick s).windowStart = s.windowStart := rfl
@[simp] theorem State.endTick_prevRx (start s : State) : (start.endTick s).prevRx = s.prevRx := rfl
@[simp] theorem State.endTick_rxAcc (start s : State) : (start.endTick s).rxAcc = s.rxAcc := rfl
@[simp] theorem State.endTick_rxK (start s : State) : (start.endTick s).rxK = s.rxK := rfl
@[simp] theorem State.endTick_txByte (start s : State) : (start.endTick s).txByte = s.txByte := rfl
@[simp] theorem State.endTick_txSlot (start s : State) : (start.endTick s).txSlot = s.txSlot := rfl
@[simp] theorem State.endTick_txRet (start s : State) : (start.endTick s).txRet = s.txRet := rfl
@[simp] theorem State.endTick_pend (start s : State) : (start.endTick s).pend = s.pend := rfl
@[simp] theorem State.endTick_port (start s : State) : (start.endTick s).port = s.port := rfl
@[simp] theorem State.endTick_fault (start s : State) : (start.endTick s).fault = s.fault := rfl
@[simp] theorem State.endTick_now (start s : State) : (start.endTick s).now = s.now + 1 := rfl
@[simp] theorem State.endTick_result (start s : State) : (start.endTick s).result = s.result := rfl
@[simp] theorem State.endTick_atStart (start s : State) : (start.endTick s).atStart = s.atStart := rfl
@[simp] theorem State.endTick_client (start s : State) : (start.endTick s).client = s.client := rfl
@[simp] theorem State.endTick_peerLine (start s : State) : (start.endTick s).peerLine = s.peerLine.tail := rfl
@[simp] theorem State.endTick_hostIn (start s : State) : (start.endTick s).hostIn = s.hostIn := rfl
@[simp] theorem State.endTick_hostEvents (start s : State) : (start.endTick s).hostEvents = s.hostEvents := rfl

/-- Placing a request is presenting it at the next tick. -/
theorem State.withFetchWord_eq (s : State) (nbits w : Nat) :
    s.withFetchWord nbits w = s.presentNext (tableRequest nbits w).1 (tableRequest nbits w).2 := rfl

end Sys2Proof.Machine
end

