-- ==== Sys2Proof/Laws/Port.lean ====
section
/-! SUPPORT. The port evaluation of a request, once: everything `exec` can do with one of the 13 operations, and that it
completes from a state with buffers in range. -/

namespace Sys2Proof.Machine

/-- Everything one evaluation of an operation on the port can make of a state `s` whose port register holds it. -/
inductive PortMove (p : PortOp) (s : State) : State → Prop
  /-- The operation holds (R114, R117, R118, R182, R187, R188), not at the tick at which a send ends. -/
  | hold : (p.stage = .sending → (sentBytes s.cfg p.instr).isSome = true →
      ¬ (s.atStart.phase = .opseq ∧ s.atStart.pend = [])) →
      p.instr ≠ .getStatus → (p.instr = .begin_ → s.atStart.phase ≠ .unconf) → PortMove p s s
  /-- A result, and no register but the port and the result (R115, R119, R120). -/
  | answer (r : Word32) : p.instr = .available ∨ p.instr = .getFe ∨ p.instr = .getStatus → PortMove p s (s.complete r)
  /-- R114 in UNCONF. -/
  | configure : p.instr = .begin_ → s.atStart.phase = .unconf →
      PortMove p s (State.complete { s.configurePins with phase := .idle } 0)
  /-- R114 in IDLE. -/
  | reconfigure : p.instr = .begin_ → s.atStart.phase = .idle → PortMove p s (s.configurePins.complete 0)
  /-- A pop with the result (R116, R187, R188). -/
  | popAnswer (v : Option Byte) (q : Ring) (r : Word32) :
      p.instr = .read ∨ (p.instr = .readU8 ∨ p.instr = .readU16) ∧ s.atStart.phase = .idle → s.rx.pop s.cfg.cap .rx = .ok (v, q) →
      PortMove p s (State.complete { s with rx := q } r)
  /-- R188, the high byte. -/
  | popHigh (v : Byte) (q : Ring) :
      p.instr = .readU16 → p.stage = .new → s.atStart.phase = .idle → s.rx.pop s.cfg.cap .rx = .ok (some v, q) →
      PortMove p s (State.setStage { s with rx := q } p (.haveHi v))
  /-- R187, R188 with no byte. -/
  | session : p.instr = .readU8 ∨ p.instr = .readU16 → s.atStart.phase = .idle → s.rx.head = s.rx.tail →
      PortMove p s s.sessionStart
  /-- R118. -/
  | window : p.instr = .update → s.atStart.phase = .idle → PortMove p s (s.sessionStart.complete 0)
  /-- R117, R182 while receiving. -/
  | defer (q : Ring) : (sentBytes s.cfg p.instr).isSome = true → p.stage = .new → s.atStart.receiving = true →
      s.tx.pushAll s.cfg.cap .tx p.frame = .ok q → PortMove p s (State.complete { s with tx := q } 0)
  /-- R117, R182 from IDLE. -/
  | startSending : (sentBytes s.cfg p.instr).isSome = true → p.stage = .new → s.atStart.receiving = false →
      s.atStart.phase = .idle → PortMove p s ((s.seqStart p.frame).setStage p .sending)
  /-- R117, R182 at the end. -/
  | sent : (sentBytes s.cfg p.instr).isSome = true → p.stage = .sending → s.atStart.phase = .opseq →
      s.atStart.pend = [] → PortMove p s (s.complete 0)

/-- A settled computation that answers a next state. -/
theorem settle_next {e : Except Fault State} {t : State} (h : settle e = .next t) : e = .ok t := by
  cases e with
  | ok s => simpa [settle] using h
  | error f => simp [settle] at h

/-- What an evaluation starts from: the operation in progress, or a request accepted at this tick (R110). -/
def startsWith (i : Instr) (p : PortOp) (s : State) : Prop :=
  (s.port = some p) ∨ (s.port = none ∧ p.instr = i ∧ p.stage = .new)

/-- An operation in stage NEW is evaluated in the same way whether it was accepted at this tick or before (R110, R111). -/
theorem portOperation_new {i : Instr} {frame : List Byte} {needsBegin : Bool}
    {body : PortOp → State → Except Fault State} {s : State}
    (hp : s.port = none ∨ s.port = some ⟨i, frame, .new⟩) (hn : needsBegin = true → s.atStart.phase ≠ .unconf) :
    portOperation i frame needsBegin body s =
      settle (body ⟨i, frame, .new⟩ { s with port := some ⟨i, frame, .new⟩ }) := by
  unfold portOperation
  rcases hp with hp | hp
  · rw [hp]
    simp only
    rw [if_neg (fun h => hn h.1 h.2)]
    rfl
  · have hs : { s with port := some ⟨i, frame, .new⟩ } = s := by rw [← hp]
    rw [hs, hp]

/-- Everything a port operation can do, from everything its body can do. -/
theorem portOperation_cases {i : Instr} {frame : List Byte} {needsBegin : Bool}
    {body : PortOp → State → Except Fault State} {s t : State} (h : portOperation i frame needsBegin body s = .next t) :
    (s.port = none ∧ needsBegin = true ∧ s.atStart.phase = .unconf ∧
        t = s.raise .notConfigured (requestWord s.cfg i) none) ∨
      (s.port = none ∧ (needsBegin = true → s.atStart.phase ≠ .unconf) ∧
        body ⟨i, frame, .new⟩ { s with port := some ⟨i, frame, .new⟩ } = .ok t) ∨
      (∃ p, s.port = some p ∧ body p { s with port := some p } = .ok t) := by
  unfold portOperation at h
  split at h
  · rename_i p hp
    have hs : { s with port := some p } = s := by rw [← hp]
    exact .inr (.inr ⟨p, hp, by rw [hs]; exact settle_next h⟩)
  · rename_i hp
    split_ifs at h with hc
    · cases h
      exact .inl ⟨hp, hc.1, hc.2, rfl⟩
    · exact .inr (.inl ⟨hp, fun hb hu => hc ⟨hb, hu⟩, settle_next h⟩)

/-- Everything the send path can do. -/
theorem sendPath_move {p : PortOp} {s t : State} (hs : (sentBytes s.cfg p.instr).isSome = true)
    (h : sendPath p s = .ok t) : PortMove p s t := by
  have ne : p.instr ≠ .getStatus ∧ p.instr ≠ .begin_ := by
    constructor <;> intro e <;> simp [e, sentBytes] at hs
  unfold sendPath at h
  split at h
  · rename_i hst
    split_ifs at h with hr hi
    · split at h
      · rename_i r hq
        cases h
        exact .defer r hs hst hr hq
      · cases h
    · cases h
      exact .startSending hs hst (by simpa using hr) hi
    · cases h
      exact .hold (by simp [hst]) ne.1 (fun e => absurd e ne.2)
  · rename_i hst
    split_ifs at h with hc
    · cases h
      exact .sent hs hst hc.1 hc.2
    · cases h
      exact .hold (fun _ _ => hc) ne.1 (fun e => absurd e ne.2)
  · rename_i hst
    cases h
    exact .hold (by simp [hst]) ne.1 (fun e => absurd e ne.2)

/-- The body of an operation, as `exec` gives it to `portOperation`: its moves are `PortMove`s. -/
theorem exec_request_cases {i : Instr} {s t : State} (hi : i.isRequest = true)
    (hp : ∀ p, s.port = some p → p.instr = i) (h : exec i s = .next t) :
    (s.port = none ∧ s.atStart.phase = .unconf ∧ i ≠ .begin_ ∧ i ≠ .getStatus ∧
        t = s.raise .notConfigured (requestWord s.cfg i) none) ∨
      (∃ p, p.instr = i ∧ (s.port = some p ∨ (s.port = none ∧ p.stage = .new ∧
          (s.atStart.phase = .unconf → i = .begin_ ∨ i = .getStatus))) ∧
        PortMove p { s with port := some p } t) := by
  have main : ∀ (frame : List Byte) (nb : Bool) (body : PortOp → State → Except Fault State),
      (nb = true → i ≠ .begin_ ∧ i ≠ .getStatus) → (nb = false → i = .begin_ ∨ i = .getStatus) →
      portOperation i frame nb body s = .next t →
      (∀ p u, p.instr = i → u.cfg = s.cfg → body p u = .ok t → PortMove p u t) →
      (s.port = none ∧ s.atStart.phase = .unconf ∧ i ≠ .begin_ ∧ i ≠ .getStatus ∧
          t = s.raise .notConfigured (requestWord s.cfg i) none) ∨
        (∃ p, p.instr = i ∧ (s.port = some p ∨ (s.port = none ∧ p.stage = .new ∧
            (s.atStart.phase = .unconf → i = .begin_ ∨ i = .getStatus))) ∧
          PortMove p { s with port := some p } t) := by
    intro frame nb body h1 h2 he hb
    rcases portOperation_cases he with ⟨a, b, c, d⟩ | ⟨a, b, c⟩ | ⟨p, a, c⟩
    · exact .inl ⟨a, c, (h1 b).1, (h1 b).2, d⟩
    · refine .inr ⟨_, rfl, .inr ⟨a, rfl, fun hu => ?_⟩, hb _ _ rfl rfl c⟩
      cases nb with
      | true => exact absurd hu (b rfl)
      | false => exact h2 rfl
    · exact .inr ⟨p, hp p a, .inl a, hb _ _ (hp p a) rfl c⟩
  cases i with
  | begin_ =>
    simp only [exec, execBegin] at h
    refine main _ _ _ (by simp) (by simp) h (fun p u hi _ hb => ?_)
    split_ifs at hb with h1 h2
    · cases hb; exact .hold (by simp [hi, sentBytes]) (by simp [hi]) (fun _ => h1.1)
    · cases hb; exact .configure hi h2
    · cases hb; exact .reconfigure hi (by tauto)
  | available =>
    simp only [exec, execAvailable] at h
    refine main _ _ _ (by simp) (by simp) h (fun p u hi _ hb => ?_)
    cases hb; exact .answer _ (by simp [hi])
  | getFe =>
    simp only [exec, execGetFe] at h
    refine main _ _ _ (by simp) (by simp) h (fun p u hi _ hb => ?_)
    cases hb; exact .answer _ (by simp [hi])
  | getStatus =>
    simp only [exec, execGetStatus] at h
    refine main _ _ _ (by simp) (by simp) h (fun p u hi _ hb => ?_)
    cases hb; exact .answer _ (by simp [hi])
  | read =>
    simp only [exec, execRead] at h
    refine main _ _ _ (by simp) (by simp) h (fun p u hi _ hb => ?_)
    split at hb
    · rename_i v q hq
      cases hb; exact .popAnswer v q _ (.inl hi) hq
    · cases hb
  | update =>
    simp only [exec, execUpdate] at h
    refine main _ _ _ (by simp) (by simp) h (fun p u hi _ hb => ?_)
    split_ifs at hb with h1
    · cases hb; exact .hold (by simp [hi, sentBytes]) (by simp [hi]) (by simp [hi])
    · cases hb; exact .window hi (not_not.1 h1)
  | write b =>
    simp only [exec, execWrite] at h
    exact main _ _ _ (by simp) (by simp) h (fun p u hi _ hb => sendPath_move (by rw [hi]; rfl) hb)
  | sendKey b =>
    simp only [exec, execSendKey] at h
    exact main _ _ _ (by simp) (by simp) h (fun p u hi _ hb => sendPath_move (by rw [hi]; rfl) hb)
  | sendLine b =>
    simp only [exec, execSendLine] at h
    exact main _ _ _ (by simp) (by simp) h (fun p u hi _ hb => sendPath_move (by rw [hi]; rfl) hb)
  | sendDebug b =>
    simp only [exec, execSendDebug] at h
    exact main _ _ _ (by simp) (by simp) h (fun p u hi _ hb => sendPath_move (by rw [hi]; rfl) hb)
  | sendReady =>
    simp only [exec, execSendReady] at h
    exact main _ _ _ (by simp) (by simp) h (fun p u hi _ hb => sendPath_move (by rw [hi]; rfl) hb)
  | readU8 =>
    simp only [exec, execReadU8] at h
    refine main _ _ _ (by simp) (by simp) h (fun p u hi _ hb => ?_)
    split_ifs at hb with h1
    · cases hb; exact .hold (by simp [hi, sentBytes]) (by simp [hi]) (by simp [hi])
    · split at hb
      · rename_i q hq
        cases hb
        rcases Ring.pop_cases hq with ⟨a, _⟩ | ⟨_, _, a, _⟩
        · exact .session (.inl hi) (not_not.1 h1) a
        · cases a
      · rename_i v q hq
        cases hb; exact .popAnswer _ q _ (.inr ⟨by simp [hi], not_not.1 h1⟩) hq
      · cases hb
  | readU16 =>
    simp only [exec, execReadU16] at h
    refine main _ _ _ (by simp) (by simp) h (fun p u hi _ hb => ?_)
    split_ifs at hb with h1
    · cases hb; exact .hold (by simp [hi, sentBytes]) (by simp [hi]) (by simp [hi])
    · split at hb
      · rename_i q hq
        cases hb
        rcases Ring.pop_cases hq with ⟨a, _⟩ | ⟨_, _, a, _⟩
        · exact .session (.inr hi) (not_not.1 h1) a
        · cases a
      · rename_i v q hq
        split at hb
        · rename_i hst
          cases hb; exact .popHigh v q hi hst (not_not.1 h1) hq
        · cases hb; exact .popAnswer _ q _ (.inr ⟨by simp [hi], not_not.1 h1⟩) hq
        · cases hb; exact .hold (by simp [hi, sentBytes]) (by simp [hi]) (by simp [hi])
      · cases hb
  | keyFrame _ => cases hi
  | lineFrame _ => cases hi
  | debugFrame _ => cases hi
  | readyFrame => cases hi
  | commandFrameIn _ _ => cases hi
  | serialChar _ => cases hi

/-- A wire-format row touches only the peer's line and its decoder's events. -/
theorem exec_wire_frame {i : Instr} {s t : State} (hi : i.isRequest = false) (h : exec i s = .next t) :
    ∃ (line : List LineItem) (events : List Event), t = { s with peerLine := line, hostEvents := events } := by
  cases i with
  | keyFrame _ => cases h; exact ⟨s.peerLine, _, rfl⟩
  | lineFrame _ => cases h; exact ⟨s.peerLine, _, rfl⟩
  | debugFrame _ => cases h; exact ⟨s.peerLine, _, rfl⟩
  | readyFrame => cases h; exact ⟨s.peerLine, _, rfl⟩
  | commandFrameIn _ _ => cases h; exact ⟨_, s.hostEvents, rfl⟩
  | serialChar _ => cases h; exact ⟨_, s.hostEvents, rfl⟩
  | _ => exact absurd hi (by simp [Instr.isRequest])

end Sys2Proof.Machine
end

