-- ==== Sys2Proof/Laws/Sequencer.lean ====
section
/-! SUPPORT. The phase actions, once: everything the action of a tick can do, and that it completes from a state with
buffers in range. -/

namespace Sys2Proof.Machine

/-- Everything the phase action of a tick can make of a state. -/
inductive PhaseMove (s : State) : State → Prop
  /-- R142, R146, R149, R150, R160 while the counter runs. -/
  | stay : PhaseMove s s
  /-- R143. -/
  | timeout : s.phase = .listen → s.windowStart + s.cfg.timeoutTicks ≤ s.now →
      PhaseMove s { s with readyOut := .high, receiving := false, phase := .flush }
  /-- R144. -/
  | edge : s.phase = .listen → s.now < s.windowStart + s.cfg.timeoutTicks → s.prevRx = true → s.sample = false →
      PhaseMove s { s with savedIe := s.ie, ie := false, counter := 0, prevRx := false, phase := .rxHalf }
  /-- R145. -/
  | remember : s.phase = .listen → s.now < s.windowStart + s.cfg.timeoutTicks →
      PhaseMove s { s with prevRx := s.sample }
  /-- R147. -/
  | falseStart : s.phase = .rxHalf → s.cfg.half ≤ s.counter → s.sample = true →
      PhaseMove s { s with ie := s.savedIe, prevRx := true, phase := .listen }
  /-- R148. -/
  | confirm : s.phase = .rxHalf → s.cfg.half ≤ s.counter → s.sample = false →
      PhaseMove s { s with rxAcc := 0, rxK := 0, counter := 0, phase := .rxBit }
  /-- R149, bits 0 to 6. -/
  | dataBit (k : Fin 8) : s.phase = .rxBit → s.cfg.bit ≤ s.counter → k.val = s.rxK.val + 1 →
      PhaseMove s { s with rxAcc := setBit s.rxAcc s.rxK s.sample, rxK := k, counter := 0 }
  /-- R149, bit 7. -/
  | lastBit : s.phase = .rxBit → s.cfg.bit ≤ s.counter → s.rxK.val = 7 →
      PhaseMove s { s with rxAcc := setBit s.rxAcc s.rxK s.sample, counter := 0, phase := .rxStop }
  /-- R150. -/
  | stopBit (q : Ring) : s.phase = .rxStop → s.cfg.bit ≤ s.counter → s.rx.push s.cfg.cap .rx s.rxAcc = .ok q →
      PhaseMove s { s with
        ie := s.savedIe
        fe := if s.sample then s.fe else (s.fe + 1) % 2 ^ s.cfg.feWidth
        rx := q
        windowStart := s.now
        prevRx := s.sample
        phase := .listen }
  /-- R155 with nothing deferred. -/
  | flushed : s.phase = .flush → s.tx.head = s.tx.tail → PhaseMove s { s with phase := .idle }
  /-- R155. -/
  | flushByte (v : Byte) (q : Ring) : s.phase = .flush → s.tx.pop s.cfg.cap .tx = .ok (some v, q) →
      PhaseMove s { s with
        tx := q, savedIe := s.ie, ie := false, counter := 0, txOut := .low, txByte := v, txSlot := 0
        txRet := .flush, phase := .tx }
  /-- R160, slots 1 to 9. -/
  | slot (k : Fin 10) : s.phase = .tx → s.cfg.bit ≤ s.counter → k.val = s.txSlot.val + 1 →
      PhaseMove s { s with counter := 0, txSlot := k, txOut := slotLevel s.txByte k }
  /-- R160 after the stop slot. -/
  | sentByte : s.phase = .tx → s.cfg.bit ≤ s.counter → s.txSlot.val = 9 →
      PhaseMove s { s with ie := s.savedIe, phase := s.txRet.phase, hostIn := s.hostIn ++ [s.txByte] }
  /-- R162 with nothing pending. -/
  | allSent : s.phase = .opseq → s.pend = [] → PhaseMove s { s with phase := .idle }
  /-- R162. -/
  | nextByte (b : Byte) (rest : List Byte) : s.phase = .opseq → s.pend = b :: rest →
      PhaseMove s { s with
        pend := rest, savedIe := s.ie, ie := false, counter := 0, txOut := .low, txByte := b, txSlot := 0
        txRet := .opseq, phase := .tx }

/-- The phase action of a tick is one of the `PhaseMove`s. -/
theorem phaseAction_move {s t : State} (h : phaseAction s = .ok t) : PhaseMove s t := by
  unfold phaseAction at h
  split at h
  case h_1 | h_2 => cases h; exact .stay
  case h_3 hp =>
    cases h
    unfold actListen
    split_ifs with h1 h2
    · exact .timeout hp h1
    · exact .edge hp (by omega) h2.1 h2.2
    · exact .remember hp (by omega)
  case h_4 hp =>
    cases h
    unfold actRxHalf
    split_ifs with h1 h2
    · exact .stay
    · exact .falseStart hp (by simpa [State.waitDone] using h1) h2
    · exact .confirm hp (by simpa [State.waitDone] using h1) (by simpa using h2)
  case h_5 hp =>
    cases h
    unfold actRxBit
    split_ifs with h1 h2
    · exact .stay
    · exact .dataBit _ hp (by simpa [State.waitDone] using h1) rfl
    · exact .lastBit hp (by simpa [State.waitDone] using h1) (by omega)
  case h_6 hp =>
    unfold actRxStop at h
    split at h
    · cases h; exact .stay
    · rename_i h1
      split at h
      · rename_i q hq
        cases h
        exact .stopBit q hp (by simpa [State.waitDone] using h1) hq
      · cases h
  case h_7 hp =>
    unfold actFlush at h
    split at h
    · rename_i q hq
      cases h
      rcases Ring.pop_cases hq with ⟨a, _⟩ | ⟨_, _, a, _⟩
      · exact .flushed hp a
      · cases a
    · rename_i v q hq
      cases h
      exact .flushByte v q hp hq
    · cases h
  case h_8 hp =>
    cases h
    unfold actOpseq
    split
    · rename_i he; exact .allSent hp he
    · rename_i b rest he; exact .nextByte b rest hp he
  case h_9 hp =>
    cases h
    unfold actTx
    split_ifs with h1 h2
    · exact .stay
    · exact .slot ⟨s.txSlot.val + 1, by omega⟩ hp (by simpa [State.waitDone] using h1) rfl
    · exact .sentByte hp (by simpa [State.waitDone] using h1) (by omega)

/-- What no phase action touches; the counter goes on from where it was or is restarted. -/
theorem PhaseMove.frame {s t : State} (h : PhaseMove s t) :
    t.atStart = s.atStart ∧ t.port = s.port ∧ t.cfg = s.cfg ∧ t.cntRun = s.cntRun ∧ t.now = s.now ∧ t.fault = s.fault ∧
      t.client = s.client ∧ t.result = s.result ∧ t.peerLine = s.peerLine ∧ t.hostEvents = s.hostEvents ∧
      t.rxPullup = s.rxPullup ∧ (t.counter = s.counter ∨ t.counter = 0) := by
  cases h <;> simp

/-- R142: no action in UNCONF and IDLE. -/
theorem PhaseMove.eq_of_quiet {s t : State} (h : PhaseMove s t) (hp : s.phase = .unconf ∨ s.phase = .idle) : t = s := by
  cases h <;> simp_all

/-- No phase action leads to UNCONF. -/
theorem PhaseMove.unconf {s t : State} (h : PhaseMove s t) (hp : t.phase = .unconf) : s.phase = .unconf := by
  cases h <;> first | exact hp | cases hp | skip
  rename_i h9
  simp only at hp
  cases hr : s.txRet <;> rw [hr] at hp <;> cases hp

/-- With buffers in range the phase action completes. -/
theorem phaseAction_completes {s : State} (hr : s.rx.Ok s.cfg.cap) (ht : s.tx.Ok s.cfg.cap) :
    ∃ t, phaseAction s = .ok t := by
  unfold phaseAction
  split
  case h_6 =>
    unfold actRxStop
    split
    · exact ⟨_, rfl⟩
    · rw [Ring.push_of_ok hr]; exact ⟨_, rfl⟩
  case h_7 =>
    unfold actFlush
    rw [Ring.pop_of_ok ht]
    split_ifs <;> exact ⟨_, rfl⟩
  all_goals exact ⟨_, rfl⟩

end Sys2Proof.Machine
end

