-- ==== Sys2Proof/Laws/Step.lean ====
section
/-! SUPPORT. A tick, once: what the peer's turns leave alone, everything the port's turn and a whole step can do. -/

namespace Sys2Proof.Machine

@[simp] theorem andThen_next (s : State) (f : State → Host.Outcome State Fault Refusal) : andThen (.next s) f = f s := rfl
@[simp] theorem andThen_fault (r : Fault) (f : State → Host.Outcome State Fault Refusal) :
    andThen (.fault r) f = .fault r := rfl
@[simp] theorem andThen_refused (r : Refusal) (f : State → Host.Outcome State Fault Refusal) :
    andThen (.refused r) f = .refused r := rfl

/-- What a sequence that answers a next state passed through. -/
theorem andThen_eq_next {o : Host.Outcome State Fault Refusal} {f : State → Host.Outcome State Fault Refusal} {t : State}
    (h : andThen o f = .next t) : ∃ u, o = .next u ∧ f u = .next t := by
  cases o with
  | next u => exact ⟨u, rfl, h⟩
  | fault r => cases h
  | refused r => cases h

/-- The peer's decoder completes and touches only its own two lists. -/
theorem decoderTurn_frame (s : State) :
    ∃ (hostIn : List Byte) (events : List Event),
      decoderTurn s = .next { s with hostIn := hostIn, hostEvents := events } := by
  unfold decoderTurn
  split
  · rename_i h; exact ⟨s.hostIn, s.hostEvents, rfl⟩
  · rename_i b rest h
    split
    · exact ⟨s.hostIn, s.hostEvents, rfl⟩
    · rename_i e left he
      cases e <;> exact ⟨left, _, rfl⟩

/-- The peer's driver completes and touches only the line it drives. -/
theorem driverTurn_frame (s : State) : ∃ line : List LineItem, driverTurn s = .next { s with peerLine := line } := by
  unfold driverTurn
  split
  · exact ⟨_, rfl⟩
  · exact ⟨_, rfl⟩
  · exact ⟨s.peerLine, rfl⟩

/-- A decoded request is one of the 13 operations. -/
theorem decodeRequest_isRequest {w : Word16} {payload : List Byte} {i : Instr} (h : decodeRequest w payload = .ok i) :
    i.isRequest = true := by
  have plain : ∀ {imm : Byte} {j : Instr}, j.isRequest = true → plainRequest imm payload j = .ok i → i.isRequest = true := by
    intro imm j hj hk
    unfold plainRequest at hk
    split_ifs at hk
    cases hk
    exact hj
  have byte : ∀ {j : Instr}, j.isRequest = true → byteRequest payload j = .ok i → i.isRequest = true := by
    intro j hj hk
    unfold byteRequest at hk
    split_ifs at hk
    cases hk
    exact hj
  unfold decodeRequest at h
  simp only at h
  split at h
  case h_14 => cases h
  case h_9 => split_ifs at h; cases h; rfl
  case h_10 => split_ifs at h; cases h; rfl
  all_goals first | exact plain rfl h | exact byte rfl h

/-- Everything a request can do, the checks of R88 passed or not. -/
theorem presentRequest_cases {w : Word16} {payload : List Byte} {s t : State} (h : presentRequest w payload s = .next t) :
    (∃ code len, t = s.raise code w len) ∨
      (∃ i, decode s.cfg (.request w payload) = .ok i ∧ i.wellFormed s.cfg = true ∧ i.isRequest = true ∧
        exec i s = .next t) := by
  unfold presentRequest at h
  split at h
  · rename_i i hd
    split_ifs at h with hw
    · exact .inr ⟨i, hd, hw, decodeRequest_isRequest hd, h⟩
    · cases h; exact .inl ⟨_, _, rfl⟩
  · cases h; exact .inl ⟨_, _, rfl⟩
  · cases h; exact .inl ⟨_, _, rfl⟩

/-- Everything the port's turn can do, up to the client's list: nothing, a fault record, or one evaluation. -/
theorem portTurn_cases {s t : State} (hr : ∀ p, s.port = some p → p.instr.isRequest = true) (h : portTurn s = .next t) :
    ∃ (before after : List ClientItem) (u : State), t = { u with client := after } ∧
      ((s.port = none ∧ u = { s with client := before }) ∨
        (s.port = none ∧ ∃ code w len, u = State.raise { s with client := before } code w len) ∨
        (∃ p, p.instr.isRequest = true ∧
          (s.port = some p ∨ (s.port = none ∧ p.stage = .new ∧
            (s.atStart.phase = .unconf → p.instr = .begin_ ∨ p.instr = .getStatus))) ∧
          PortMove p { s with client := before, port := some p } u)) := by
  have presented : ∀ (w : Word16) (payload : List Byte) (before : List ClientItem) (u : State), s.port = none →
      presentRequest w payload { s with client := before } = .next u →
      ((s.port = none ∧ u = { s with client := before }) ∨
        (s.port = none ∧ ∃ code w len, u = State.raise { s with client := before } code w len) ∨
        (∃ p, p.instr.isRequest = true ∧
          (s.port = some p ∨ (s.port = none ∧ p.stage = .new ∧
            (s.atStart.phase = .unconf → p.instr = .begin_ ∨ p.instr = .getStatus))) ∧
          PortMove p { s with client := before, port := some p } u)) := by
    intro w payload before u hp hu
    rcases presentRequest_cases hu with ⟨code, len, he⟩ | ⟨i, _, _, hi, he⟩
    · exact .inr (.inl ⟨hp, code, w, len, he⟩)
    · rcases exec_request_cases hi (fun q hq => by simp [hp] at hq) he with
        ⟨_, _, _, _, e⟩ | ⟨p, hpi, hc, hm⟩
      · exact .inr (.inl ⟨hp, _, _, _, e⟩)
      · refine .inr (.inr ⟨p, by rw [hpi]; exact hi, ?_, hm⟩)
        rw [hpi]; exact hc
  unfold portTurn at h
  split at h
  · rename_i p hp
    refine ⟨s.client, t.client, t, rfl, ?_⟩
    rcases exec_request_cases (hr p hp) (fun q hq => by rw [hp] at hq; cases hq; rfl) h with
      ⟨hn, _⟩ | ⟨q, hq, hc, hm⟩
    · simp [hp] at hn
    · refine .inr (.inr ⟨q, by rw [hq]; exact hr p hp, ?_, hm⟩)
      rw [hq]; exact hc
  · rename_i hp
    split at h
    · cases h
      exact ⟨s.client, s.client, s, rfl, .inl ⟨hp, rfl⟩⟩
    · rename_i nb w payload rest hcl
      split_ifs at h
      · exact ⟨rest, t.client, t, rfl, presented w payload rest t hp h⟩
      · cases h
        exact ⟨s.client, s.client, s, rfl, .inl ⟨hp, rfl⟩⟩
    · rename_i nb rest hcl
      split_ifs at h
      · obtain ⟨u, hu, ht⟩ := andThen_eq_next h
        have hu' := presented _ _ s.client u hp hu
        split_ifs at ht
        · injection ht with ht
          exact ⟨s.client, rest, u, ht.symm, hu'⟩
        · injection ht with ht
          exact ⟨s.client, u.client, u, ht.symm, hu'⟩
      · cases h
        exact ⟨s.client, s.client, s, rfl, .inl ⟨hp, rfl⟩⟩

/-- A step is the block's turn on a state in which only the peer's lists have changed. -/
theorem step_eq {s : State} (hc : s.cfg.WellFormed) :
    ∃ (hostIn : List Byte) (events : List Event) (line : List LineItem),
      decoderTurn s = .next { s with hostIn := hostIn, hostEvents := events } ∧
      driverTurn { s with hostIn := hostIn, hostEvents := events } =
        .next { s with hostIn := hostIn, hostEvents := events, peerLine := line } ∧
      step s = blockTurn { s with hostIn := hostIn, hostEvents := events, peerLine := line } := by
  obtain ⟨hi, ev, h1⟩ := decoderTurn_frame s
  obtain ⟨line, h2⟩ := driverTurn_frame { s with hostIn := hi, hostEvents := ev }
  refine ⟨hi, ev, line, h1, h2, ?_⟩
  rw [step, if_pos hc, h1, andThen_next, h2, andThen_next]

/-- What a step that answers a next state passed through: the configuration is well-formed, and either the block is
faulted or the tick is a phase action, the port's turn and the end of the tick. -/
theorem step_cases {s t : State} (h : step s = .next t) :
    s.cfg.WellFormed ∧
      ∃ (hostIn : List Byte) (events : List Event) (line : List LineItem) (b : State),
        b = { s with hostIn := hostIn, hostEvents := events, peerLine := line } ∧
        ((s.fault ≠ none ∧ t = b.faultedTick) ∨
          (s.fault = none ∧ ∃ u v, PhaseMove b.beginTick u ∧ phaseAction b.beginTick = .ok u ∧ portTurn u = .next v ∧
            t = b.endTick v)) := by
  have hc : s.cfg.WellFormed := by
    by_contra hc
    rw [step, if_neg hc] at h
    cases h
  obtain ⟨hi, ev, line, _, _, h3⟩ := step_eq hc
  refine ⟨hc, hi, ev, line, _, rfl, ?_⟩
  rw [h3, blockTurn] at h
  split_ifs at h with hf
  · cases h
    exact .inl ⟨hf, rfl⟩
  · refine .inr ⟨not_not.1 hf, ?_⟩
    split at h
    · cases h
    · rename_i u hu
      obtain ⟨v, hv, ht⟩ := andThen_eq_next h
      cases ht
      exact ⟨u, v, phaseAction_move hu, hu, hv, rfl⟩

end Sys2Proof.Machine
end

