-- ==== Sys2Proof/Tests/Slice0.lean ====
section
/-! SUPPORT. Tests: expected values from the encoding tables and from 95_test_vectors.md (V<n>), and for every obligation
with hypotheses a concrete state and operands that meet them. -/

namespace Sys2Proof.Tests

open Sys2Proof.Machine

/-! ### Helpers -/

/-- The configuration of the vectors. -/
abbrev vc : Config := Config.ofVectors

/-- The launch state of R253. -/
def idle : State :=
  { State.reset with phase := .idle, txOut := .high, readyOut := .high, rxPullup := true, cntRun := true, now := 1 }

/-- A state in a receive window, the peer's line high. -/
def listening : State :=
  { idle with phase := .listen, readyOut := .low, receiving := true, windowStart := 1, now := 20,
              peerLine := [.level .high] }

/-- A state at the start of the start slot of a byte sent for WRITE. -/
def transmitting (b : Byte) : State :=
  { idle with phase := .tx, txOut := .low, counter := 1, txByte := b, txRet := .opseq, ie := false, savedIe := true,
              now := 3, port := some ⟨.write b, [b], .sending⟩ }

/-- A buffer that holds the bytes, from slot 0 on; none of them is 0. -/
def holding (bytes : List Byte) : Ring :=
  { slots := (List.range bytes.length).zip bytes, head := bytes.length, tail := 0 }

/-- The next state, if there is one. -/
def after (o : Host.Outcome State Fault Refusal) : Option State :=
  match o with
  | .next s => some s
  | _ => none

/-- One tick in which the client presents a request. -/
def tick (s : State) (w : Word16) (payload : List Byte) : Option State := after (step (s.presentNext w payload))

/-! ### WellFormed smoke tests: each check refuses an ill-formed term -/

theorem test_wf_sendLine_too_long : (Instr.sendLine (List.replicate 129 0x41)).wellFormed vc = false := by decide +kernel
theorem test_wf_lineFrame_too_long : (Instr.lineFrame (List.replicate 129 0x41)).wellFormed vc = false := by decide +kernel
theorem test_wf_debugFrame_too_long : (Instr.debugFrame (List.replicate 64 0x41)).wellFormed vc = false := by decide
theorem test_wf_debugFrame_end_marker : (Instr.debugFrame [0x41, 0xFB]).wellFormed vc = false := by decide
theorem test_wf_longest : (Instr.sendLine (List.replicate 128 0x41)).wellFormed vc = true ∧
    (Instr.debugFrame (List.replicate 63 0x41)).wellFormed vc = true := by decide +kernel

theorem test_cfg_ok : vc.WellFormed := by decide
theorem test_cfg_bit_too_small : ¬ Config.WellFormed { vc with baudRate := 16000 } := by decide
theorem test_cfg_bit_over_counter : ¬ Config.WellFormed { vc with counterWidth := 4 } := by decide
theorem test_cfg_no_timeout : ¬ Config.WellFormed { vc with rxTimeoutMs := 0 } := by decide
theorem test_cfg_cap : ¬ Config.WellFormed { vc with cap := 1 } := by decide
theorem test_cfg_debug_payload : ¬ Config.WellFormed { vc with maxDebugPayload := 0 } := by decide
theorem test_cfg_line : ¬ Config.WellFormed { vc with maxLine := 256 } := by decide
theorem test_cfg_fe_width : ¬ Config.WellFormed { vc with feWidth := 0 } ∧
    ¬ Config.WellFormed { vc with feWidth := 32 } := by decide
theorem test_cfg_markers : ¬ Config.WellFormed { vc with mKeyEnd := 0xF8 } := by decide

/-! ### Decoding: the word or the bytes of every constructor -/

/-- V20, V21, V23, V27. -/
theorem test_decode_plain :
    [0x0100, 0x0200, 0x0300, 0x0500, 0x0600, 0x0700, 0x1300, 0x1400, 0x1500].map (decodeTableWord 16) =
      [some .begin_, some .available, some .read, some .update, some .getFe, some .getStatus, some .sendReady,
        some .readU8, some .readU16] := by decide
/-- V22. -/
theorem test_decode_write : decodeTableWord 16 0x0441 = some (.write 0x41) := by decide
/-- V24. -/
theorem test_decode_sendKey : decodeTableWord 16 0x1010 = some (.sendKey 0x10) := by decide
/-- V25. -/
theorem test_decode_sendLine : (decode vc (.request 0x1102 [0x68, 0x69])).toOption = some (.sendLine [0x68, 0x69]) := by
  decide
/-- R82, the operand word of zeros. -/
theorem test_decode_sendLine_zeros : decodeTableWord 16 0x1102 = some (.sendLine [0, 0]) := by decide
/-- V26. -/
theorem test_decode_sendDebug : (decode vc (.request 0x1200 [0x6F, 0x6B])).toOption = some (.sendDebug [0x6F, 0x6B]) ∧
    decodeTableWord 16 0x1200 = some (.sendDebug []) := by decide
/-- V28, V29. -/
theorem test_decode_reserved :
    [0x0800, 0x0000, 0x1600, 0xFF00, 0x0301, 0x1201].map (decodeTableWord 16) = [none, none, none, none, none, none] := by
  decide
/-- V12. -/
theorem test_decode_keyFrame : (decode vc (.outbound [0xFD, 0x41, 0xBC, 0xFE])).toOption = some (.keyFrame 0x41) := by
  decide
/-- V1. -/
theorem test_decode_lineFrame :
    (decode vc (.outbound [0xF8, 0x02, 0x68, 0x69, 0xFB, 0xF9])).toOption = some (.lineFrame [0x68, 0x69]) := by decide
/-- V17. -/
theorem test_decode_debugFrame : (decode vc (.outbound [0xFA, 0x6F, 0x6B, 0xFB])).toOption = some (.debugFrame [0x6F, 0x6B]) := by
  decide
/-- V4. -/
theorem test_decode_readyFrame : (decode vc (.outbound [0xFF, 0xFF, 0xFC])).toOption = some .readyFrame := by decide
/-- R97. -/
theorem test_decode_command : (decode vc (.inbound [0x12, 0x34])).toOption = some (.commandFrameIn 0x12 [0x34]) := by
  decide
/-- V52: the slots of 0x35. -/
theorem test_decode_char :
    (decode vc (.slots [false, true, false, true, false, true, true, false, false, true])).toOption =
      some (.serialChar 0x35) := by decide
/-- R90: a low stop slot is no character. -/
theorem test_decode_char_low_stop :
    (decode vc (.slots [false, true, false, true, false, true, true, false, false, false])).toOption = none := by decide

/-! ### Frames and checksums -/

/-- V2, V3, V10, V11, V13. -/
theorem test_key_frames : [0x10, 0x11, 0x00, 0xFD, 0xFF].map (keyFrameBytes vc) =
    [[0xFD, 0x10, 0xED, 0xFE], [0xFD, 0x11, 0xEC, 0xFE], [0xFD, 0x00, 0xFD, 0xFE], [0xFD, 0xFD, 0x00, 0xFE],
      [0xFD, 0xFF, 0x02, 0xFE]] := by decide
/-- V6, V14, V15. -/
theorem test_line_frames : [[], [0x41], [0xFB]].map (lineFrameBytes vc) =
    [[0xF8, 0x00, 0xF8, 0xF9], [0xF8, 0x01, 0x41, 0xB8, 0xF9], [0xF8, 0x01, 0xFB, 0x02, 0xF9]] := by decide
/-- V16, V18. -/
theorem test_debug_frames : debugFramesBytes vc (List.replicate 64 0x41) =
    [0xFA] ++ List.replicate 63 0x41 ++ [0xFB, 0xFA, 0x41, 0xFB] ∧ debugFramesBytes vc [] = [] := by decide
/-- V19. -/
theorem test_debug_lengths : (debugFramesBytes vc (List.replicate 126 0x41)).length = 130 ∧
    (debugFramesBytes vc (List.replicate 127 0x41)).length = 133 := by decide +kernel

/-! ### The reference decoder -/

/-- V40 to V45. -/
theorem test_host_decode_frames :
    hostDecode vc [0xF8, 0x02, 0x68, 0x69, 0xFB, 0xF9] = [.line [0x68, 0x69]] ∧
      hostDecode vc [0xFD, 0x41, 0xBD, 0xFE] = [.keyBadChk 0x41 0xBD] ∧
      hostDecode vc [0xFD, 0x41, 0xBC, 0xFF] = [.badEnd .key, .skip 0x41, .skip 0xBC, .incomplete [0xFF]] ∧
      hostDecode vc [0xF8, 0x02, 0x68, 0x69, 0xFA, 0xF9] = [.lineBadChk [0x68, 0x69] 0xFA] ∧
      hostDecode vc [0xF8, 0x02, 0x68] = [.incomplete [0xF8, 0x02, 0x68]] := by decide
/-- V46 to V49. -/
theorem test_host_decode_more :
    hostDecode vc [0xFA, 0x6F, 0x6B, 0xFB, 0xFF, 0xFF, 0xFC] = [.debug [0x6F, 0x6B], .ready] ∧
      hostDecode vc [0xFA, 0x41, 0xFB, 0x42, 0xFB] = [.debug [0x41], .skip 0x42, .skip 0xFB] ∧
      hostDecode vc [0xFF, 0xFF] = [.incomplete [0xFF, 0xFF]] ∧ hostDecode vc [0xFF, 0x41] = [.skip 0xFF, .skip 0x41] ∧
      hostDecode vc [0xF8, 0x81, 0x00] = [.lineBadLen 129, .skip 0x81, .skip 0x00] := by decide
/-- V50, V51. -/
theorem test_host_decode_debug_bound :
    hostDecode vc (0xFA :: List.replicate 64 0x41) = .badEnd .debug :: List.replicate 64 (.skip 0x41) ∧
      hostDecode vc (0xFA :: List.replicate 63 0x41) = [.incomplete (0xFA :: List.replicate 63 0x41)] := by decide

/-! ### Buffers -/

/-- V34: the full buffer drops the byte. -/
theorem test_push_full : (Ring.push 128 .rx { slots := [], head := 127, tail := 0 } 0x11).toOption =
    some { slots := [], head := 127, tail := 0 } := by decide
/-- R57: the slot is the written one, and a zero leaves no entry. -/
theorem test_memory_write : Memory.write [(1, 0x11), (5, 0x55)] 3 0x33 = [(1, 0x11), (3, 0x33), (5, 0x55)] ∧
    Memory.write [(1, 0x11), (5, 0x55)] 1 0 = [(5, 0x55)] := by decide

/-! ### One tick of each instruction -/

/-- R114. -/
theorem test_begin : (tick State.reset 0x0100 []).map (fun t => (t.phase, t.txOut, t.readyOut, t.rxPullup, t.result)) =
    some (.idle, .high, .high, true, some 0) := by decide
/-- V31. -/
theorem test_available : (tick { idle with rx := { slots := [], head := 5, tail := 10 } } 0x0200 []).map (·.result) =
    some (some 123) := by decide
/-- V32. -/
theorem test_read_empty : (tick { idle with rx := { slots := [], head := 7, tail := 7 } } 0x0300 []).map
    (fun t => (t.result, t.rx.head, t.rx.tail)) = some (some 0xFFFFFFFF, 7, 7) := by decide
/-- V33. -/
theorem test_read_wraps : (tick { idle with rx := { slots := [(127, 0xFF)], head := 0, tail := 127 } } 0x0300 []).map
    (fun t => (t.result, t.rx.head, t.rx.tail)) = some (some 0xFF, 0, 0) := by decide
/-- V52: WRITE starts from IDLE. -/
theorem test_write_starts : (tick idle 0x0435 []).map (fun t => (t.phase, t.pend, t.result)) =
    some (.opseq, [0x35], none) := by decide
/-- R117: WRITE defers in a receive window. -/
theorem test_write_defers : (tick listening 0x0441 []).map (fun t => (t.tx, t.result)) =
    some ({ slots := [(0, 0x41)], head := 1, tail := 0 }, some 0) := by decide
/-- V53. -/
theorem test_update : (tick idle 0x0500 []).map (fun t => (t.phase, t.readyOut, t.receiving, t.windowStart, t.result)) =
    some (.listen, .low, true, 1, some 0) := by decide
/-- R118: UPDATE holds in a receive window. -/
theorem test_update_holds : (tick listening 0x0500 []).map (fun t => (t.phase, t.port, t.result)) =
    some (.listen, some ⟨.update, [], .new⟩, none) := by decide
/-- R119. -/
theorem test_getFe : (tick { idle with fe := 255 } 0x0600 []).map (fun t => (t.result, t.fe)) =
    some (some 255, 255) := by decide
/-- V53, V71: the status word in IDLE, LISTEN and UNCONF. -/
theorem test_getStatus : [idle, listening, State.reset].map (fun s => (tick s 0x0700 []).map (·.result)) =
    [some (some 0x1C), some (some 0x17), some (some 0)] := by decide
/-- V12. -/
theorem test_sendKey : (tick idle 0x1041 []).map (·.pend) = some [0xFD, 0x41, 0xBC, 0xFE] := by decide
/-- V35: two bytes of the frame fit. -/
theorem test_sendKey_deferred : (tick { listening with tx := { slots := [], head := 125, tail := 0 } } 0x1041 []).map
    (fun t => (t.tx, t.result)) = some ({ slots := [(125, 0xFD), (126, 0x41)], head := 127, tail := 0 }, some 0) := by
  decide
/-- V1. -/
theorem test_sendLine : (tick idle 0x1102 [0x68, 0x69]).map (·.pend) = some [0xF8, 0x02, 0x68, 0x69, 0xFB, 0xF9] := by
  decide
/-- V17. -/
theorem test_sendDebug : (tick idle 0x1200 [0x6F, 0x6B]).map (·.pend) = some [0xFA, 0x6F, 0x6B, 0xFB] := by decide
/-- V18: no byte, so the sequencer is in OPSEQ with nothing pending. -/
theorem test_sendDebug_empty : (tick idle 0x1200 []).map (fun t => (t.phase, t.pend)) = some (.opseq, []) := by decide
/-- V4. -/
theorem test_sendReady : (tick idle 0x1300 []).map (·.pend) = some [0xFF, 0xFF, 0xFC] := by decide
/-- R187: the byte. -/
theorem test_readU8 : (tick { idle with rx := holding [0x5A] } 0x1400 []).map (fun t => (t.result, t.rx.tail)) =
    some (some 0x5A, 1) := by decide
/-- R187: no byte, so a session opens and the operation stays. -/
theorem test_readU8_empty : (tick idle 0x1400 []).map (fun t => (t.phase, t.readyOut, t.port, t.result)) =
    some (.listen, .low, some ⟨.readU8, [], .new⟩, none) := by decide
/-- R188: the high byte first. -/
theorem test_readU16_high : (tick { idle with rx := holding [0x12, 0x34] } 0x1500 []).map
    (fun t => (t.port, t.rx.tail)) = some (some ⟨.readU16, [], .haveHi 0x12⟩, 1) := by decide
/-- R188: the low byte completes. -/
theorem test_readU16_low :
    (after (step { idle with rx := holding [0x34], port := some ⟨.readU16, [], .haveHi 0x12⟩ })).map
      (fun t => (t.port, t.result)) = some (none, some 0x1234) := by decide
/-- V41, read by the peer. -/
theorem test_keyFrame : (after (step { idle with hostIn := [0xFD, 0x10, 0xED, 0xFE, 0xFD] })).map
    (fun t => (t.hostIn, t.hostEvents)) = some ([0xFD], [.key 0x10]) := by decide
/-- V40, read by the peer. -/
theorem test_lineFrame : (after (step { idle with hostIn := [0xF8, 0x02, 0x68, 0x69, 0xFB, 0xF9] })).map
    (fun t => (t.hostIn, t.hostEvents)) = some ([], [.line [0x68, 0x69]]) := by decide
/-- V46, read by the peer. -/
theorem test_debugFrame : (after (step { idle with hostIn := [0xFA, 0x6F, 0x6B, 0xFB] })).map
    (fun t => (t.hostIn, t.hostEvents)) = some ([], [.debug [0x6F, 0x6B]]) := by decide
/-- V4, read by the peer. -/
theorem test_readyFrame : (after (step { idle with hostIn := [0xFF, 0xFF, 0xFC] })).map
    (fun t => (t.hostIn, t.hostEvents)) = some ([], [.ready]) := by decide
/-- R97: two characters of ten slots of 16 ticks. -/
theorem test_commandFrameIn : (after (exec (.commandFrameIn 0x12 [0x34]) idle)).map (fun t => t.peerLine.length) =
    some 320 := by decide +kernel
/-- V54: the levels of 0x5A at the sampling offsets 8, 24, 40, ... 152. -/
theorem test_serialChar : (after (exec (.serialChar 0x5A) idle)).map
    (fun t => (List.range 10).map (fun k => t.peerLine[8 + 16 * k]?)) =
      some ([Pin.low, .low, .high, .low, .high, .high, .low, .high, .low, .high].map (fun p => some (.level p))) := by
  decide

/-! ### Phases and faults -/

/-- R155: the deferred byte's start bit. -/
theorem test_flush : (after (step { idle with phase := .flush, tx := holding [0x41] })).map
    (fun t => (t.phase, t.txOut, t.txByte, t.ie, t.counter, t.tx.tail)) = some (.tx, .low, 0x41, false, 1, 1) := by decide
/-- V54: the edge is seen. -/
theorem test_edge : (after (step { listening with peerLine := [.char 0x5A] })).map
    (fun t => (t.phase, t.ie, t.counter)) = some (.rxHalf, false, 1) := by decide
/-- V55: the line is high again at the re-check. -/
theorem test_false_start :
    (after (step { listening with phase := .rxHalf, counter := 8, ie := false, savedIe := true })).map
      (fun t => (t.phase, t.ie, t.prevRx)) = some (.listen, true, true) := by decide
/-- R150: a low stop bit counts, wrapping, and the byte is pushed. -/
theorem test_stop_bit :
    (after (step { listening with phase := .rxStop, counter := 16, rxAcc := 0x5A, fe := 255,
                                  peerLine := [.level .low] })).map
      (fun t => (t.phase, t.fe, t.rx, t.windowStart)) =
        some (.listen, 0, { slots := [(0, 0x5A)], head := 1, tail := 0 }, 20) := by decide
/-- R221 code 1. -/
theorem test_not_configured : (tick State.reset 0x0200 []).map (fun t => (t.fault, t.phase, t.now)) =
    some (some ⟨.notConfigured, 0x0200, none⟩, .unconf, 1) := by decide
/-- R221 codes 2 and 3. -/
theorem test_request_faults : [tick idle 0x0800 [], tick idle 0x1103 [0x41, 0x42], tick idle 0x1181 (List.replicate 129 0)].map
    (Option.map (·.fault)) =
      [some (some ⟨.illegalOp, 0x0800, none⟩), some (some ⟨.badOperand, 0x1103, some 2⟩),
        some (some ⟨.badOperand, 0x1181, some 129⟩)] := by decide +kernel

/-- R43: an undriven line reads high in a receive window, so no start bit is seen. -/
theorem test_undriven_line : (after (step { listening with peerLine := [.level .z] })).map (fun t => (t.phase, t.prevRx)) =
    some (.listen, true) := by decide
/-- R221 code 4: the refusal records the configuration. -/
theorem test_config_invalid : step { idle with cfg := { vc with cap := 1 } } =
    .refused (.configInvalid { vc with cap := 1 }) := rfl
/-- R100: the polling has not begun before its tick, and goes on while BUSY is 1, and ends at the tick it reads 0. -/
theorem test_waitidle : [{ idle with client := [.waitIdle 2] }, { listening with client := [.waitIdle 2] },
      { idle with client := [.waitIdle 1] }].map (fun s => (after (step s)).map (fun t => (t.result, t.client))) =
    [some (none, [.waitIdle 2]), some (some 0x17, [.waitIdle 2]), some (some 0x1C, [])] := by decide

/-! ### Assembly text (V20 to V27, R100) -/

theorem test_assemble : assemble vc ["@5: begin", "write 0x41", "sendline [0x68, 105]", "sendshift", "waitidle", "@7: waitidle"] =
    some [.request 5 0x0100 [], .request 0 0x0441 [], .request 0 0x1102 [0x68, 0x69], .request 0 0x1010 [], .waitIdle 0,
      .waitIdle 7] := by
  decide
theorem test_assemble_modkey : assemble vc ["sendmodkey 0x10, 'a'"] =
    some [.request 0 0x1010 [], .request 0 0x1061 []] := by decide

/-! ### Witnesses: the hypotheses of each obligation, met together -/

/-- An ill-formed configuration, for the statements about one. -/
abbrev badCfg : State := { idle with cfg := { vc with cap := 1 } }

theorem witness_EncodedInstructionsDecodeToThemselves : vc.WellFormed ∧
    (∀ i ∈ [Instr.begin_, .sendLine [0x68, 0x69], .lineFrame [], .debugFrame [], .serialChar 0xFF, .commandFrameIn 1 []],
      i.wellFormed vc = true) := by decide

theorem witness_DecodedRequestsEncodeToTheirWord :
    (decode vc (.request 0x1102 [0x68, 0x69])) = .ok (.sendLine [0x68, 0x69]) := rfl

theorem witness_PayloadLegalityDecidesAcceptance : ¬ ReservedRequest 0x1180 ∧
    LegalPayload vc 0x1180 (List.replicate 128 0) ∧ ¬ LegalPayload vc 0x1181 (List.replicate 129 0) ∧
    ¬ LegalPayload vc 0x0441 [0] ∧ LegalPayload vc 0x1200 [0] := by decide +kernel

/-- The refused clauses: reserved, not legal, legal before BEGIN. -/
theorem witness_RequestChecksFollowTheirOrder :
    (idle.beginTick.port = none ∧ State.reset.port = none) ∧ (ReservedRequest 0x0800 ∧ ReservedRequest 0x0301) ∧
      (¬ ReservedRequest 0x1103 ∧ ¬ LegalPayload vc 0x1103 [0x41, 0x42]) ∧
      (¬ ReservedRequest 0x0200 ∧ LegalPayload vc 0x0200 []) ∧
      (State.reset.atStart.phase = .unconf ∧ opField 0x0200 ≠ 0x01 ∧ opField 0x0200 ≠ 0x07) :=
  ⟨by decide, by decide, by decide, by decide, by decide⟩

/-- The last clause: BEGIN before configuration, AVAILABLE after it. -/
theorem witness_RequestChecksFollowTheirOrder_accepted :
    (¬ ReservedRequest 0x0100 ∧ LegalPayload vc 0x0100 [] ∧ opField 0x0100 = 0x01) ∧
      (¬ ReservedRequest 0x0200 ∧ LegalPayload vc 0x0200 [] ∧ idle.beginTick.atStart.phase ≠ .unconf) :=
  ⟨by decide, by decide⟩

theorem witness_SlotReadsBackWhatWasWritten : Memory.wf [(3, 0x33), (7, 0x77)] = true := by decide

/-- A full, an empty and a wrapped buffer. -/
theorem witness_PushAndPopFollowTheIndices :
    Ring.Ok 128 { slots := [], head := 127, tail := 0 } ∧ Ring.Ok 128 { slots := [], head := 0, tail := 0 } ∧
      Ring.Ok 128 { slots := [(127, 0x41)], head := 3, tail := 127 } := by decide

theorem witness_CountIsTheIndexDifference : 2 ≤ 2 ∧ (holding [0x41]).head < 2 ∧ (holding [0x41]).tail < 2 := by decide

theorem witness_BuffersAreFirstInFirstOut : 2 ≤ 4 ∧ (holding [0x41, 0x42, 0x43]).Ok 4 ∧ (holding []).Ok 4 := by decide

theorem witness_OverfullBufferKeepsTheFirstBytes : 2 ≤ 128 ∧ (holding []).Ok 128 ∧ (holding []).head = (holding []).tail := by
  decide

/-- R10 holds of the configuration all frame statements may be read at. -/
theorem witness_DebugChunksCutTheText : vc.WellFormed := by decide

theorem witness_DecoderReadsKeyFrames : vc.WellFormed ∧ ([0x41, 0xBC] : List Byte).length < 3 := by decide

/-- Each clause at the bound: length 129, length 128 cut short, length 128 whole. -/
theorem witness_DecoderReadsLineFrames : vc.WellFormed ∧ vc.maxLine < (129#8).toNat ∧ (128#8).toNat ≤ vc.maxLine ∧
    (List.replicate 129 (0x41 : Byte)).length < (128#8).toNat + 2 ∧
    (List.replicate 128 (0x41 : Byte)).length = (128#8).toNat := by decide +kernel

/-- Each clause at the bound: a text of 63 bytes; 63 and 64 bytes without an end marker. -/
theorem witness_DecoderReadsDebugFrames : vc.WellFormed ∧ vc.mDbgEnd ∉ List.replicate 63 (0x41 : Byte) ∧
    (List.replicate 63 (0x41 : Byte)).length ≤ vc.maxDebugPayload ∧
    vc.mDbgEnd ∉ (List.replicate 64 (0x41 : Byte)).take (vc.maxDebugPayload + 1) ∧
    (List.replicate 63 (0x41 : Byte)).length < vc.maxDebugPayload + 1 ∧
    ¬ (List.replicate 64 (0x41 : Byte)).length < vc.maxDebugPayload + 1 := by decide +kernel

theorem witness_DecoderReadsReadyFramesAndSkips : vc.WellFormed ∧ (0x41 : Byte) ≠ vc.mPad ∧ (0xFF : Byte) ≠ vc.mReady ∧
    (0x41 : Byte) ≠ vc.mKeyStart ∧ (0x41 : Byte) ≠ vc.mLineStart ∧ (0x41 : Byte) ≠ vc.mDbgStart := by decide

theorem witness_FramesDecodeToTheirEvents : vc.WellFormed ∧ (List.replicate 128 (0x41 : Byte)).length ≤ vc.maxLine ∧
    vc.mDbgEnd ∉ List.replicate 64 (0x41 : Byte) := by decide +kernel

theorem witness_DecoderTurnKeepsTheDecodedStream : State.cfg { idle with hostIn := [0xFD, 0x41] } |>.WellFormed := by decide

theorem witness_BeginConfiguresThePins : State.reset.port = none ∧ State.reset.beginTick.atStart.phase = .unconf ∧
    idle.port = none ∧ idle.beginTick.atStart.phase = .idle ∧
    listening.port = none ∧ listening.beginTick.atStart.phase = .listen := by decide

theorem witness_AvailableReturnsTheCount : idle.beginTick.port = none ∧ idle.beginTick.atStart.phase ≠ .unconf ∧
    Ring.count idle.cfg.cap { slots := [], head := 5, tail := 10 } < 2 ^ 32 := by decide

theorem witness_ReadReturnsTheOldestByteOrTheSentinel :
    ∀ r ∈ [holding [], holding [0x5A]], State.port { idle.beginTick with rx := r } = none ∧
      idle.beginTick.atStart.phase ≠ .unconf ∧ r.Ok idle.cfg.cap := by decide

theorem witness_SendsDeferWhileReceiving :
    (∀ i ∈ [Instr.write 0x41, .sendKey 0x41, .sendLine [0x68], .sendDebug [], .sendReady], (sentBytes vc i).isSome = true) ∧
      listening.cfg.WellFormed ∧ listening.beginTick.port = none ∧ listening.beginTick.atStart.phase ≠ .unconf ∧
      listening.beginTick.atStart.receiving = true ∧ listening.tx.Ok listening.cfg.cap := by decide

theorem witness_SendsStartFromIdleOrHold :
    (sentBytes vc (.write 0x41) = some [0x41]) ∧ idle.beginTick.port = none ∧ idle.beginTick.atStart.phase = .idle ∧
      idle.beginTick.atStart.receiving = false ∧
      (State.beginTick { transmitting 0x35 with port := none }).atStart.phase = .tx := by decide

theorem witness_SendsCompleteWhenAllBytesAreSent : (sentBytes vc (.write 0x35)).isSome = true ∧
    (transmitting 0x35).beginTick.port = some ⟨.write 0x35, [0x35], .sending⟩ ∧
    (State.beginTick { transmitting 0x35 with phase := .opseq }).atStart.phase = .opseq ∧
    (State.beginTick { transmitting 0x35 with phase := .opseq }).atStart.pend = [] := by decide

theorem witness_UpdateOpensAReceiveWindow : idle.beginTick.port = none ∧ idle.beginTick.atStart.phase = .idle ∧
    listening.beginTick.port = none ∧ listening.beginTick.atStart.phase = .listen := by decide

theorem witness_GetFeReturnsTheCounter : State.port { idle.beginTick with fe := 255 } = none ∧
    idle.beginTick.atStart.phase ≠ .unconf ∧ idle.cfg.WellFormed ∧ State.fe { idle with fe := 255 } < 2 ^ idle.cfg.feWidth := by
  decide

theorem witness_GetStatusReturnsTheStatusBits : State.reset.port = none ∧ listening.port = none := by decide

theorem witness_UnconfiguredRequestsRaiseNotConfigured :
    encode State.reset.cfg (.sendLine [0x68]) = .request 0x1101 [0x68] ∧ Instr.sendLine [0x68] ≠ .begin_ ∧
      Instr.sendLine [0x68] ≠ .getStatus ∧ State.reset.port = none ∧ State.reset.atStart.phase = .unconf := by decide

theorem witness_ReadU8ReturnsAByteOrOpensASession :
    ∀ p ∈ [none, some ⟨Instr.readU8, [], .new⟩], ∀ r ∈ [holding [], holding [0x5A]], ∀ s ∈ [idle, listening],
      ((State.port { s.beginTick with port := p, rx := r }) = none ∨
        (State.port { s.beginTick with port := p, rx := r }) = some ⟨.readU8, [], .new⟩) ∧
      s.beginTick.atStart.phase ≠ .unconf ∧ r.Ok s.cfg.cap := by decide

theorem witness_ReadU16ReadsTheHighByteFirst :
    ∀ st ∈ [Stage.new, .haveHi 0x12], ∀ r ∈ [holding [], holding [0x34]],
      State.port { idle.beginTick with port := some ⟨.readU16, [], st⟩ } = some ⟨.readU16, [], st⟩ ∧ st ≠ .sending ∧
        idle.beginTick.atStart.phase ≠ .unconf ∧ r.Ok idle.cfg.cap := by decide

theorem witness_BlockingReadsAreNeverAbandoned : ∃ t, State.fault { idle with port := some ⟨.readU8, [], .new⟩ } = none ∧
    step { idle with port := some ⟨.readU8, [], .new⟩ } = .next t := ⟨_, rfl, rfl⟩

theorem witness_IdlePhasesTakeNoAction : State.reset.phase = .unconf ∧ idle.phase = .idle := by decide

/-- On both sides of the timeout, which is at tick 161. -/
theorem witness_ListenTestsTheTimeoutThenTheEdge : listening.phase = .listen ∧
    ¬ listening.windowStart + listening.cfg.timeoutTicks ≤ 160 ∧
    listening.windowStart + listening.cfg.timeoutTicks ≤ 161 := by decide

theorem witness_HalfBitRecheckRejectsFalseStarts :
    State.phase { listening with phase := .rxHalf, counter := 8 } = .rxHalf ∧ ¬ 8 < vc.half ∧ 7 < vc.half := by decide

theorem witness_DataBitsAreAccumulatedInOrder : State.phase { listening with phase := .rxBit, counter := 16 } = .rxBit ∧
    vc.bit ≤ 16 ∧ 15 < vc.bit := by decide

theorem witness_StopBitPushesTheByte : State.phase { listening with phase := .rxStop, counter := 16 } = .rxStop ∧
    listening.rx.Ok listening.cfg.cap ∧ vc.bit ≤ 16 ∧ 15 < vc.bit := by decide

theorem witness_FlushAndOpseqStartTheNextByte :
    (State.phase { idle with phase := .flush, tx := holding [0x41] } = .flush ∧ (holding [0x41]).Ok idle.cfg.cap) ∧
      (State.phase { idle with phase := .opseq } = .opseq ∧ idle.pend = []) ∧
      State.pend { idle with phase := .opseq, pend := [0x41, 0x42] } = 0x41 :: [0x42] := by decide

/-- Before the end of a slot, at the end of slot 8 and at the end of slot 9. -/
theorem witness_TxDrivesTheSlotsInTurn : (transmitting 0x35).phase = .tx ∧ (transmitting 0x35).counter < vc.bit ∧
    vc.bit ≤ State.counter { transmitting 0x35 with counter := 16 } ∧ (8 : Fin 10).val < 9 ∧ (9 : Fin 10).val = 9 := by decide

theorem witness_StepRunsTheDecodedRequest :
    idle.cfg.WellFormed ∧ decoderTurn (idle.presentNext 0x0441 []) = .next (idle.presentNext 0x0441 []) ∧
      driverTurn (idle.presentNext 0x0441 []) = .next (idle.presentNext 0x0441 []) ∧
      (idle.presentNext 0x0441 []).fault = none ∧
      phaseAction (idle.presentNext 0x0441 []).beginTick = .ok (idle.presentNext 0x0441 []).beginTick ∧
      (idle.presentNext 0x0441 []).beginTick.port = none ∧
      (idle.presentNext 0x0441 []).beginTick.client = .request 1 0x0441 [] :: [] ∧
      1 ≤ (idle.presentNext 0x0441 []).beginTick.now ∧
      decode idle.cfg (.request 0x0441 []) = .ok (.write 0x41) ∧ (Instr.write 0x41).wellFormed idle.cfg = true :=
  ⟨by decide, rfl, rfl, rfl, rfl, rfl, rfl, by decide, rfl, rfl⟩

theorem witness_StepRunsTheOperationInProgress :
    (transmitting 0x35).cfg.WellFormed ∧ decoderTurn (transmitting 0x35) = .next (transmitting 0x35) ∧
      driverTurn (transmitting 0x35) = .next (transmitting 0x35) ∧ (transmitting 0x35).fault = none ∧
      phaseAction (transmitting 0x35).beginTick = .ok (transmitting 0x35).beginTick ∧
      (transmitting 0x35).beginTick.port = some ⟨.write 0x35, [0x35], .sending⟩ ∧
      phaseAction idle.beginTick = .ok idle.beginTick ∧ idle.beginTick.port = none ∧ idle.beginTick.client = [] :=
  ⟨by decide, rfl, rfl, rfl, rfl, rfl, rfl, rfl, rfl⟩

theorem witness_PeerTurnsRunTheWireRows :
    vc.WellFormed ∧ (Instr.keyFrame 0x41).wellFormed vc = true ∧
      encode vc (.keyFrame 0x41) = .outbound [0xFD, 0x41, 0xBC, 0xFE] ∧
      State.hostIn { idle with hostIn := [0xFD, 0x41, 0xBC, 0xFE, 0xFD] } = [0xFD, 0x41, 0xBC, 0xFE] ++ [0xFD] ∧
      State.peerLine { idle with peerLine := [.char 0x41] } = .char 0x41 :: [] ∧
      State.peerLine { idle with peerLine := [.command 1 [2]] } = .command 1 [2] :: [] := by decide

/-- A running tick, and a tick of a faulted block. -/
theorem witness_TicksAdvanceNowAndTheCounter : (∃ t, step idle = .next t ∧ idle.cntRun = true ∧ idle.fault = none) ∧
    (∃ t, step State.reset = .next t ∧ State.reset.cntRun = false) := ⟨⟨_, rfl, rfl, rfl⟩, ⟨_, rfl, rfl⟩⟩

theorem witness_FaultedBlockOnlyLetsNowAdvance : idle.cfg.WellFormed ∧
    State.fault { idle with fault := some ⟨.illegalOp, 0x0800, none⟩ } ≠ none := by decide

theorem witness_RefusedRequestsLeaveOnlyTheFaultRecord :
    (idle.presentNext 0x0800 []).fault = none ∧ (idle.presentNext 0x0800 []).port = none ∧
      (idle.presentNext 0x0800 []).client = .request 1 0x0800 [] :: [] ∧ 1 ≤ (idle.presentNext 0x0800 []).now ∧
      phaseAction (idle.presentNext 0x0800 []).beginTick = .ok (idle.presentNext 0x0800 []).beginTick ∧
      ReservedRequest 0x0800 ∧ ¬ LegalPayload vc 0x1103 [0x41, 0x42] :=
  ⟨rfl, rfl, rfl, by decide, rfl, by decide, by decide⟩

theorem witness_BeginFromResetReachesCleanIdle : State.reset.cfg.WellFormed ∧ State.reset.phase = .unconf ∧
    State.reset.receiving = false ∧ State.reset.ie = true ∧ State.reset.fe = 0 ∧ State.reset.rx.head = 0 ∧
    State.reset.rx.tail = 0 ∧ State.reset.tx.head = 0 ∧ State.reset.tx.tail = 0 ∧ State.reset.prevRx = true ∧
    State.reset.pend = [] ∧ State.reset.port = none ∧ State.reset.fault = none := by decide

theorem witness_StepKeepsBuffersInRange : ∃ t, idle.cfg.WellFormed ∧ idle.BuffersInRange ∧ step idle = .next t :=
  ⟨_, by decide, by decide, rfl⟩

theorem witness_StepKeepsPinsFollowingThePhase : ∃ t, (transmitting 0x35).PinsFollowPhase ∧
    step (transmitting 0x35) = .next t := ⟨_, by decide, rfl⟩

theorem transmitting_port : (transmitting 0x35).PortFollowsPhase := by
  refine ⟨⟨fun _ => rfl, fun _ => .inr ⟨rfl, rfl⟩⟩, fun _ => rfl, fun h => ?_, fun p hp => ?_⟩
  · cases h
  · cases hp
    exact ⟨rfl, fun _ => rfl, fun _ h => absurd rfl h⟩

theorem witness_StepKeepsThePortFollowingThePhase : ∃ t, (transmitting 0x35).PortFollowsPhase ∧
    step (transmitting 0x35) = .next t := ⟨_, transmitting_port, rfl⟩

theorem witness_StepKeepsThePreemptionState : ∃ t, (transmitting 0x35).PreemptionHeld true ∧
    step (transmitting 0x35) = .next t := ⟨_, by decide, rfl⟩

theorem witness_OnlyIllFormedConfigurationsStop : ¬ badCfg.cfg.WellFormed ∧ idle.cfg.WellFormed ∧ idle.BuffersInRange := by
  decide

theorem witness_NoCollisionOnAnyRun : ∃ t, State.reset.PinsFollowPhase ∧ Sys2Proof.core.run 2 State.reset = .next t :=
  ⟨_, by decide, rfl⟩

/-- The bounds of both ranges: slots 0 and 9, ticks 0 and `BIT - 1`. -/
theorem witness_TransmittedSlotsLastOneBitPeriod :
    (transmitting 0x35).cfg.WellFormed ∧ (transmitting 0x35).BuffersInRange ∧ (transmitting 0x35).PinsFollowPhase ∧
      (transmitting 0x35).PortFollowsPhase ∧ (transmitting 0x35).fault = none ∧ (transmitting 0x35).client = [] ∧
      (transmitting 0x35).phase = .tx ∧ (transmitting 0x35).txSlot = 0 ∧ (transmitting 0x35).counter = 1 ∧
      (transmitting 0x35).txOut = .low ∧ 0 < vc.bit ∧ 15 < vc.bit :=
  ⟨by decide, by decide, by decide, transmitting_port, rfl, rfl, rfl, rfl, rfl, rfl, by decide, by decide⟩

theorem listening_port (l : List LineItem) (n : Nat) :
    State.PortFollowsPhase { listening with peerLine := l, now := n } := by
  refine ⟨⟨fun h => ?_, fun h => ?_⟩, fun _ => rfl, fun h => ?_, fun p hp => ?_⟩
  · rcases h with h | ⟨h, _⟩ <;> cases h
  · cases h
  · cases h
  · cases hp

/-- The last tick before the timeout. -/
theorem witness_MatchingCharactersAreReceived :
    let s : State := { listening with peerLine := [.char 0x5A], now := 160 }
    s.cfg.WellFormed ∧ s.BuffersInRange ∧ s.PinsFollowPhase ∧ s.PortFollowsPhase ∧ s.fault = none ∧ s.client = [] ∧
      s.port = none ∧ s.phase = .listen ∧ s.prevRx = true ∧ s.now < s.windowStart + s.cfg.timeoutTicks ∧
      s.peerLine = .char 0x5A :: [] :=
  ⟨by decide, by decide, by decide, listening_port _ _, rfl, rfl, rfl, rfl, rfl, by decide, rfl⟩

theorem witness_SilentSessionsEndAtTheTimeout :
    let s : State := { listening with peerLine := List.replicate 160 (.level .high), now := 2 }
    s.cfg.WellFormed ∧ s.BuffersInRange ∧ s.PinsFollowPhase ∧ s.fault = none ∧ s.client = [] ∧ s.port = none ∧
      s.phase = .listen ∧ s.tx.head = s.tx.tail ∧ s.now = s.windowStart + 1 ∧
      (∀ j, j < s.cfg.timeoutTicks → s.peerLine[j]? = some (.level .high)) :=
  ⟨by decide, by decide, by decide, rfl, rfl, rfl, rfl, rfl, rfl, fun j hj => by
    have hj : j < 160 := hj
    show (List.replicate 160 (LineItem.level .high))[j]? = _
    rw [List.getElem?_replicate, if_pos hj]⟩

/-- One state for each clause. -/
theorem witness_SampleFollowsTheLineAndThePullUp : ∀ p ∈ [Pin.low, .high, .z],
    State.peerLine { listening with peerLine := [.level p] } = .level p :: [] ∧ listening.rxPullup = true := by decide

end Sys2Proof.Tests
end

section
/-! PROOFS. The state's invariants (spec 10_state.md). A tick is taken apart once into the peer's turns, a phase action,
the port's turn and the end of the tick (Laws/Step.lean); each invariant is then kept by every `PhaseMove` and by every
`PortMove`. -/

namespace Sys2Proof.Machine

/-! ### What a tick passes through -/

/-- The state of a tick between the phase action and the port's turn, seen from the phase the tick began in: no action
was taken in UNCONF and IDLE, and UNCONF is entered from nowhere (R142). -/
def State.AfterPhase (s : State) : Prop :=
  (s.atStart.phase = .unconf ∨ s.atStart.phase = .idle → s.phase = s.atStart.phase) ∧
    (s.phase = .unconf → s.atStart.phase = .unconf)

theorem State.AfterPhase.idle {s : State} (h : s.AfterPhase) (hs : s.atStart.phase = .idle) : s.phase = .idle :=
  (h.1 (.inr hs)).trans hs

theorem State.AfterPhase.unconf {s : State} (h : s.AfterPhase) (hs : s.atStart.phase = .unconf) : s.phase = .unconf :=
  (h.1 (.inl hs)).trans hs

/-- Every phase action leads to such a state. -/
theorem PhaseMove.afterPhase {s u : State} (h : PhaseMove s.beginTick u) : u.AfterPhase := by
  have hstart : u.atStart.phase = s.phase := by rw [h.frame.1]; rfl
  refine ⟨fun hq => ?_, fun hu => hstart.trans (h.unconf hu)⟩
  rw [hstart] at hq
  rw [hstart, h.eq_of_quiet hq]
  rfl

/-- What no evaluation of an operation touches. -/
theorem PortMove.frame {p : PortOp} {s t : State} (h : PortMove p s t) :
    t.cfg = s.cfg ∧ t.now = s.now ∧ t.counter = s.counter := by
  cases h <;> exact ⟨rfl, rfl, rfl⟩

/-- Everything the port's turn can do, whatever the port register holds: a wire-format row, or else nothing, a fault
record or one evaluation, up to the client's list. -/
theorem portTurn_moves {s t : State} (h : portTurn s = .next t) :
    (∃ (line : List LineItem) (events : List Event), t = { s with peerLine := line, hostEvents := events }) ∨
      ∃ (before after : List ClientItem) (u : State), t = { u with client := after } ∧
        (u = { s with client := before } ∨
          (∃ code w len, u = State.raise { s with client := before } code w len) ∨
          (∃ p, PortMove p { s with client := before, port := some p } u)) := by
  by_cases hr : ∀ p, s.port = some p → p.instr.isRequest = true
  · obtain ⟨before, after, u, ht, hu⟩ := portTurn_cases hr h
    refine .inr ⟨before, after, u, ht, ?_⟩
    rcases hu with ⟨_, hu⟩ | ⟨_, hu⟩ | ⟨p, _, _, hu⟩
    · exact .inl hu
    · exact .inr (.inl hu)
    · exact .inr (.inr ⟨p, hu⟩)
  · simp only [not_forall] at hr
    obtain ⟨p, hp, hw⟩ := hr
    simp only [portTurn, hp] at h
    exact .inl (exec_wire_frame (by simpa using hw) h)

/-- The port's turn with an operation in progress is one evaluation of it (R110). -/
theorem portTurn_of_busy {s t : State} {p : PortOp} (hp : s.port = some p) (hr : p.instr.isRequest = true)
    (h : portTurn s = .next t) : PortMove p s t := by
  simp only [portTurn, hp] at h
  have hport : ∀ q, s.port = some q → q = p := fun q hq => Option.some.inj (hq.symm.trans hp)
  rcases exec_request_cases hr (fun q hq => by rw [hport q hq]) h with ⟨hn, _⟩ | ⟨q, _, hq | ⟨hn, _⟩, hm⟩
  · rw [hp] at hn; cases hn
  · obtain rfl := hport q hq
    rw [← hp] at hm
    exact hm
  · rw [hp] at hn; cases hn

/-- What the port's turn leaves unchanged. -/
theorem portTurn_frame {s t : State} (h : portTurn s = .next t) :
    t.cfg = s.cfg ∧ t.now = s.now ∧ t.counter = s.counter := by
  rcases portTurn_moves h with ⟨_, _, rfl⟩ | ⟨_, _, u, rfl, rfl | ⟨_, _, _, rfl⟩ | ⟨p, hu⟩⟩
  · exact ⟨rfl, rfl, rfl⟩
  · exact ⟨rfl, rfl, rfl⟩
  · exact ⟨rfl, rfl, rfl⟩
  · exact hu.frame

/-! ### Invariants that a tick keeps part by part -/

/-- A state without its ports, its fault record, its time and the agents outside the block. -/
def State.inner (s : State) : State :=
  { s with port := none, fault := none, now := 0, result := none, atStart := State.reset.atStart, client := [],
           peerLine := [], hostIn := [], hostEvents := [] }

/-- A predicate on the inner registers that every part of a tick keeps. -/
structure TickInvariant (I : State → Prop) : Prop where
  inner : ∀ s : State, I s ↔ I s.inner
  phase : ∀ {s u : State}, PhaseMove s u → I s → I u
  port : ∀ {p : PortOp} {s t : State}, s.AfterPhase → PortMove p s t → I s → I t
  endTick : ∀ {start s : State}, s.cfg = start.cfg → I start → I s → I (start.endTick s)

theorem TickInvariant.of_inner_eq {I : State → Prop} (hI : TickInvariant I) {s t : State} (hs : I s)
    (e : s.inner = t.inner) : I t :=
  (hI.inner t).2 (e ▸ (hI.inner s).1 hs)

theorem TickInvariant.portTurn {I : State → Prop} (hI : TickInvariant I) {s t : State} (ha : s.AfterPhase) (hs : I s)
    (h : portTurn s = .next t) : I t := by
  rcases portTurn_moves h with ⟨line, events, rfl⟩ | ⟨before, after, u, rfl, hu⟩
  · exact hI.of_inner_eq hs rfl
  · suffices I u from hI.of_inner_eq this rfl
    rcases hu with rfl | ⟨code, w, len, rfl⟩ | ⟨p, hm⟩
    · exact hI.of_inner_eq hs rfl
    · exact hI.of_inner_eq hs rfl
    · exact hI.port (s := { s with client := before, port := some p }) ha hm (hI.of_inner_eq hs rfl)

/-- Every step keeps such a predicate. -/
theorem TickInvariant.step {I : State → Prop} (hI : TickInvariant I) {s t : State} (hs : I s)
    (h : step s = .next t) : I t := by
  obtain ⟨_, hostIn, events, line, b, rfl, ⟨_, rfl⟩ | ⟨_, u, v, hm, _, hv, rfl⟩⟩ := step_cases h
  · exact hI.of_inner_eq hs rfl
  · have hu : I u := hI.phase hm (hI.of_inner_eq hs rfl)
    have hcfg : v.cfg = s.cfg := (portTurn_frame hv).1.trans hm.frame.2.2.1
    exact hI.endTick hcfg (hI.of_inner_eq hs rfl) (hI.portTurn hm.afterPhase hu hv)

/-! ### Buffers and counters in range -/

theorem PhaseMove.keeps_buffersInRange {s u : State} (h : PhaseMove s u) (hs : s.BuffersInRange) :
    u.BuffersInRange := by
  obtain ⟨hrx, htx, hcnt, hfe⟩ := hs
  have h0 : 0 < 2 ^ s.cfg.counterWidth := Nat.two_pow_pos _
  cases h with
  | stay => exact ⟨hrx, htx, hcnt, hfe⟩
  | timeout => exact ⟨hrx, htx, hcnt, hfe⟩
  | remember => exact ⟨hrx, htx, hcnt, hfe⟩
  | falseStart => exact ⟨hrx, htx, hcnt, hfe⟩
  | flushed => exact ⟨hrx, htx, hcnt, hfe⟩
  | sentByte => exact ⟨hrx, htx, hcnt, hfe⟩
  | allSent => exact ⟨hrx, htx, hcnt, hfe⟩
  | edge => exact ⟨hrx, htx, h0, hfe⟩
  | confirm => exact ⟨hrx, htx, h0, hfe⟩
  | dataBit => exact ⟨hrx, htx, h0, hfe⟩
  | lastBit => exact ⟨hrx, htx, h0, hfe⟩
  | slot => exact ⟨hrx, htx, h0, hfe⟩
  | nextByte => exact ⟨hrx, htx, h0, hfe⟩
  | flushByte v q _ hq => exact ⟨hrx, Ring.pop_keeps_ok htx hq, h0, hfe⟩
  | stopBit q _ _ hq =>
    have hcount : (if s.sample then s.fe else (s.fe + 1) % 2 ^ s.cfg.feWidth) < 2 ^ s.cfg.feWidth := by
      split_ifs
      · exact hfe
      · exact Nat.mod_lt _ (Nat.two_pow_pos _)
    exact ⟨Ring.push_keeps_ok hrx hq, htx, hcnt, hcount⟩

theorem PortMove.keeps_buffersInRange {p : PortOp} {s t : State} (h : PortMove p s t) (hs : s.BuffersInRange) :
    t.BuffersInRange := by
  obtain ⟨hrx, htx, hcnt, hfe⟩ := hs
  cases h with
  | popAnswer v q r _ hq => exact ⟨Ring.pop_keeps_ok hrx hq, htx, hcnt, hfe⟩
  | popHigh v q _ _ _ hq => exact ⟨Ring.pop_keeps_ok hrx hq, htx, hcnt, hfe⟩
  | defer q _ _ _ hq => exact ⟨hrx, Ring.pushAll_keeps_ok htx hq, hcnt, hfe⟩
  | _ => exact ⟨hrx, htx, hcnt, hfe⟩

/-- The end of a tick takes the counter modulo `2 ^ W` (R33). -/
theorem State.endTick_keeps_buffersInRange {start s : State} (hcfg : s.cfg = start.cfg) (hb : start.BuffersInRange)
    (hs : s.BuffersInRange) : (start.endTick s).BuffersInRange := by
  obtain ⟨hrx, htx, _, hfe⟩ := hs
  obtain ⟨_, _, hcnt, _⟩ := hb
  refine ⟨hrx, htx, ?_, hfe⟩
  simp only [State.endTick]
  split_ifs
  · exact Nat.mod_lt _ (Nat.two_pow_pos _)
  · exact hcfg ▸ hcnt

theorem buffersInRange_tickInvariant : TickInvariant State.BuffersInRange where
  inner _ := Iff.rfl
  phase := PhaseMove.keeps_buffersInRange
  port _ := PortMove.keeps_buffersInRange
  endTick := State.endTick_keeps_buffersInRange

/-- Settles O50: no move takes a buffer out of range, and each counter is restarted or taken modulo its width. -/
theorem stepKeepsBuffersInRange : Obligations.StepKeepsBuffersInRange :=
  fun _ _ _ hs h => buffersInRange_tickInvariant.step hs h

/-! ### Pins -/

/-- A slot level of R160 is the level of the character's slot (R90). -/
theorem slotLevel_eq_slotOf (b : Byte) {k : Nat} (hk : 1 ≤ k) : slotLevel b k = Pin.ofBit (slotOf b k) := by
  unfold slotLevel slotOf
  rw [if_neg (by omega : ¬ k = 0)]
  split_ifs <;> rfl

theorem ofBit_ne_z (b : Bool) : Pin.ofBit b ≠ .z := by cases b <;> decide

/-- The pins in UNCONF. -/
theorem pinsFollowPhase_unconf {s : State} (hp : s.phase = .unconf) :
    s.PinsFollowPhase ↔
      s.receiving = false ∧ s.txOut = .z ∧ s.readyOut = .z ∧ s.rxPullup = false ∧ s.cntRun = false := by
  simp [State.PinsFollowPhase, Phase.receives, hp]

/-- The pins after configuration, outside TX. -/
theorem pinsFollowPhase_of_not_tx {s : State} (hu : s.phase ≠ .unconf) (ht : s.phase ≠ .tx) :
    s.PinsFollowPhase ↔
      (s.receiving = true ↔ s.phase.receives) ∧ s.rxPullup = true ∧ s.cntRun = true ∧
        s.readyOut = (if s.receiving then Pin.low else Pin.high) ∧ s.txOut = .high := by
  constructor
  · rintro ⟨hrec, _, hconf, hhigh, _⟩
    obtain ⟨hpull, hrun, hready, _⟩ := hconf hu
    exact ⟨hrec, hpull, hrun, hready, hhigh hu ht⟩
  · rintro ⟨hrec, hpull, hrun, hready, htx⟩
    exact ⟨hrec, fun h => absurd h hu, fun _ => ⟨hpull, hrun, hready, by simp [htx]⟩, fun _ _ => htx,
      fun h => absurd h ht⟩

/-- The pins in the receive phases (R23). -/
theorem pinsFollowPhase_receives {s : State} (hp : s.phase.receives) :
    s.PinsFollowPhase ↔
      s.receiving = true ∧ s.rxPullup = true ∧ s.cntRun = true ∧ s.readyOut = .low ∧ s.txOut = .high := by
  have hne : s.phase ≠ .unconf ∧ s.phase ≠ .tx := by rcases hp with hp | hp | hp | hp <;> simp [hp]
  rw [pinsFollowPhase_of_not_tx hne.1 hne.2, iff_true_right hp]
  exact and_congr_right fun hrec => by simp [hrec]

/-- The phases after configuration in which no line is active. -/
abbrev Phase.resting (p : Phase) : Prop := p = .idle ∨ p = .flush ∨ p = .opseq

theorem pinsFollowPhase_resting {s : State} (hp : s.phase.resting) :
    s.PinsFollowPhase ↔
      s.receiving = false ∧ s.rxPullup = true ∧ s.cntRun = true ∧ s.readyOut = .high ∧ s.txOut = .high := by
  have hne : s.phase ≠ .unconf ∧ s.phase ≠ .tx ∧ ¬ s.phase.receives := by
    rcases hp with hp | hp | hp <;> simp [Phase.receives, hp]
  rw [pinsFollowPhase_of_not_tx hne.1 hne.2.1, iff_false_right hne.2.2, Bool.not_eq_true]
  exact and_congr_right fun hrec => by simp [hrec]

/-- The pins in TX. -/
theorem pinsFollowPhase_tx {s : State} (hp : s.phase = .tx) :
    s.PinsFollowPhase ↔
      s.receiving = false ∧ s.rxPullup = true ∧ s.cntRun = true ∧ s.readyOut = .high ∧
        s.txOut = Pin.ofBit (slotOf s.txByte s.txSlot) := by
  constructor
  · rintro ⟨hrec, _, hconf, _, htx⟩
    have hoff : s.receiving = false := by simpa [Phase.receives, hp] using hrec
    obtain ⟨hpull, hrun, hready, _⟩ := hconf (by simp [hp])
    exact ⟨hoff, hpull, hrun, by simpa [hoff] using hready, htx hp⟩
  · rintro ⟨hoff, hpull, hrun, hready, htx⟩
    have hdriven : s.txOut ≠ .z := htx ▸ ofBit_ne_z _
    exact ⟨by simp [Phase.receives, hp, hoff], fun h => absurd (hp.symm.trans h) (by simp),
      fun _ => ⟨hpull, hrun, by simp [hoff, hready], hdriven⟩, fun _ hn => absurd hp hn, fun _ => htx⟩

theorem PhaseMove.keeps_pinsFollowPhase {s u : State} (h : PhaseMove s u) (hs : s.PinsFollowPhase) :
    u.PinsFollowPhase := by
  cases h with
  | stay => exact hs
  | remember => exact hs
  | dataBit => exact hs
  | timeout hp =>
    obtain ⟨_, hpull, hrun, _, htx⟩ := (pinsFollowPhase_receives (.inl hp)).1 hs
    exact (pinsFollowPhase_resting (.inr (.inl rfl))).2 ⟨rfl, hpull, hrun, rfl, htx⟩
  | edge hp => exact (pinsFollowPhase_receives (.inr (.inl rfl))).2 ((pinsFollowPhase_receives (.inl hp)).1 hs)
  | falseStart hp => exact (pinsFollowPhase_receives (.inl rfl)).2 ((pinsFollowPhase_receives (.inr (.inl hp))).1 hs)
  | confirm hp =>
    exact (pinsFollowPhase_receives (.inr (.inr (.inl rfl)))).2 ((pinsFollowPhase_receives (.inr (.inl hp))).1 hs)
  | lastBit hp =>
    exact (pinsFollowPhase_receives (.inr (.inr (.inr rfl)))).2
      ((pinsFollowPhase_receives (.inr (.inr (.inl hp)))).1 hs)
  | stopBit q hp =>
    exact (pinsFollowPhase_receives (.inl rfl)).2 ((pinsFollowPhase_receives (.inr (.inr (.inr hp)))).1 hs)
  | flushed hp => exact (pinsFollowPhase_resting (.inl rfl)).2 ((pinsFollowPhase_resting (.inr (.inl hp))).1 hs)
  | allSent hp => exact (pinsFollowPhase_resting (.inl rfl)).2 ((pinsFollowPhase_resting (.inr (.inr hp))).1 hs)
  | flushByte v q hp =>
    obtain ⟨hrec, hpull, hrun, hready, _⟩ := (pinsFollowPhase_resting (.inr (.inl hp))).1 hs
    exact (pinsFollowPhase_tx rfl).2 ⟨hrec, hpull, hrun, hready, rfl⟩
  | nextByte b rest hp =>
    obtain ⟨hrec, hpull, hrun, hready, _⟩ := (pinsFollowPhase_resting (.inr (.inr hp))).1 hs
    exact (pinsFollowPhase_tx rfl).2 ⟨hrec, hpull, hrun, hready, rfl⟩
  | slot k hp _ hk =>
    obtain ⟨hrec, hpull, hrun, hready, _⟩ := (pinsFollowPhase_tx hp).1 hs
    exact (pinsFollowPhase_tx (by exact hp)).2 ⟨hrec, hpull, hrun, hready, slotLevel_eq_slotOf _ (by omega)⟩
  | sentByte hp _ hlast =>
    obtain ⟨hrec, hpull, hrun, hready, htx⟩ := (pinsFollowPhase_tx hp).1 hs
    have hstop : s.txOut = .high := by rw [htx, hlast]; rfl
    have hrest : s.txRet.phase.resting := by cases s.txRet <;> simp [Phase.resting, TxRet.phase]
    exact (pinsFollowPhase_resting hrest).2 ⟨hrec, hpull, hrun, hready, hstop⟩

/-- `SessionStart` from IDLE lowers the ready-signal with `receiving` (R121). -/
theorem State.sessionStart_pinsFollowPhase {s : State} (hp : s.phase = .idle) (hs : s.PinsFollowPhase) :
    s.sessionStart.PinsFollowPhase := by
  obtain ⟨_, hpull, hrun, _, htx⟩ := (pinsFollowPhase_resting (.inl hp)).1 hs
  exact (pinsFollowPhase_receives (.inl rfl)).2 ⟨rfl, hpull, hrun, rfl, htx⟩

theorem PortMove.keeps_pinsFollowPhase {p : PortOp} {s t : State} (ha : s.AfterPhase) (h : PortMove p s t)
    (hs : s.PinsFollowPhase) : t.PinsFollowPhase := by
  cases h with
  | configure _ hu =>
    have hrec := ((pinsFollowPhase_unconf (ha.unconf hu)).1 hs).1
    exact (pinsFollowPhase_resting (.inl rfl)).2 ⟨hrec, rfl, rfl, rfl, rfl⟩
  | reconfigure _ hi =>
    have hp := ha.idle hi
    have hrec := ((pinsFollowPhase_resting (.inl hp)).1 hs).1
    exact (pinsFollowPhase_resting (.inl (by exact hp))).2 ⟨hrec, rfl, rfl, rfl, rfl⟩
  | session _ hi => exact State.sessionStart_pinsFollowPhase (ha.idle hi) hs
  | window _ hi =>
    have hsession := State.sessionStart_pinsFollowPhase (ha.idle hi) hs
    exact hsession
  | startSending _ _ _ hi =>
    exact (pinsFollowPhase_resting (.inr (.inr rfl))).2 ((pinsFollowPhase_resting (.inl (ha.idle hi))).1 hs)
  | _ => exact hs

theorem pinsFollowPhase_tickInvariant : TickInvariant State.PinsFollowPhase where
  inner _ := Iff.rfl
  phase := PhaseMove.keeps_pinsFollowPhase
  port := PortMove.keeps_pinsFollowPhase
  endTick _ _ hs := hs

/-- Settles O51: every move between two phases gives the pins the levels of the phase it leads to. -/
theorem stepKeepsPinsFollowingThePhase : Obligations.StepKeepsPinsFollowingThePhase :=
  fun _ _ hs h => pinsFollowPhase_tickInvariant.step hs h

/-! ### Preemption -/

@[simp] theorem Phase.critical_rxHalf : Phase.rxHalf.critical := .inl rfl
@[simp] theorem Phase.critical_rxBit : Phase.rxBit.critical := .inr (.inl rfl)
@[simp] theorem Phase.critical_rxStop : Phase.rxStop.critical := .inr (.inr (.inl rfl))
@[simp] theorem Phase.critical_tx : Phase.tx.critical := .inr (.inr (.inr rfl))

theorem preemptionHeld_critical {prior : Bool} {s : State} (hp : s.phase.critical) :
    s.PreemptionHeld prior ↔ s.ie = false ∧ s.savedIe = prior :=
  ⟨fun h => h.1 hp, fun h => ⟨fun _ => h, fun hn => absurd hp hn⟩⟩

theorem preemptionHeld_outside {prior : Bool} {s : State} (hp : ¬ s.phase.critical) :
    s.PreemptionHeld prior ↔ s.ie = prior :=
  ⟨fun h => h.2 hp, fun h => ⟨fun hc => absurd hc hp, fun _ => h⟩⟩

/-- A move between two phases outside the critical sections that keeps `ie`. -/
theorem preemptionHeld_of_outside {prior : Bool} {s t : State} (hs : s.PreemptionHeld prior) (hp : ¬ s.phase.critical)
    (ht : ¬ t.phase.critical) (he : t.ie = s.ie) : t.PreemptionHeld prior :=
  (preemptionHeld_outside ht).2 (he.trans ((preemptionHeld_outside hp).1 hs))

/-- An entry of a critical section (R36). -/
theorem preemptionHeld_of_enter {prior : Bool} {s t : State} (hs : s.PreemptionHeld prior) (hp : ¬ s.phase.critical)
    (ht : t.phase.critical) (he : t.ie = false) (hsaved : t.savedIe = s.ie) : t.PreemptionHeld prior :=
  (preemptionHeld_critical ht).2 ⟨he, hsaved.trans ((preemptionHeld_outside hp).1 hs)⟩

/-- An exit of a critical section (R36). -/
theorem preemptionHeld_of_exit {prior : Bool} {s t : State} (hs : s.PreemptionHeld prior) (hp : s.phase.critical)
    (ht : ¬ t.phase.critical) (he : t.ie = s.savedIe) : t.PreemptionHeld prior :=
  (preemptionHeld_outside ht).2 (he.trans ((preemptionHeld_critical hp).1 hs).2)

/-- A move inside a critical section. -/
theorem preemptionHeld_of_inside {prior : Bool} {s t : State} (hs : s.PreemptionHeld prior) (hp : s.phase.critical)
    (ht : t.phase.critical) (he : t.ie = s.ie) (hsaved : t.savedIe = s.savedIe) : t.PreemptionHeld prior := by
  obtain ⟨hie, hprior⟩ := (preemptionHeld_critical hp).1 hs
  exact (preemptionHeld_critical ht).2 ⟨he.trans hie, hsaved.trans hprior⟩

theorem PhaseMove.keeps_preemptionHeld {prior : Bool} {s u : State} (h : PhaseMove s u) (hs : s.PreemptionHeld prior) :
    u.PreemptionHeld prior := by
  cases h with
  | stay => exact hs
  | remember => exact hs
  | dataBit => exact hs
  | slot => exact hs
  | timeout hp => exact preemptionHeld_of_outside hs (by simp [hp]) (by simp) rfl
  | flushed hp => exact preemptionHeld_of_outside hs (by simp [hp]) (by simp) rfl
  | allSent hp => exact preemptionHeld_of_outside hs (by simp [hp]) (by simp) rfl
  | edge hp => exact preemptionHeld_of_enter hs (by simp [hp]) (by simp) rfl rfl
  | flushByte v q hp => exact preemptionHeld_of_enter hs (by simp [hp]) (by simp) rfl rfl
  | nextByte b rest hp => exact preemptionHeld_of_enter hs (by simp [hp]) (by simp) rfl rfl
  | confirm hp => exact preemptionHeld_of_inside hs (by simp [hp]) (by simp) rfl rfl
  | lastBit hp => exact preemptionHeld_of_inside hs (by simp [hp]) (by simp) rfl rfl
  | falseStart hp => exact preemptionHeld_of_exit hs (by simp [hp]) (by simp) rfl
  | stopBit q hp => exact preemptionHeld_of_exit hs (by simp [hp]) (by simp) rfl
  | sentByte hp =>
    exact preemptionHeld_of_exit hs (by simp [hp]) (by cases s.txRet <;> simp [TxRet.phase]) rfl

/-- The port never enters or leaves a critical section: its operations change the phase in UNCONF and IDLE only. -/
theorem PortMove.keeps_preemptionHeld {prior : Bool} {p : PortOp} {s t : State} (ha : s.AfterPhase)
    (h : PortMove p s t) (hs : s.PreemptionHeld prior) : t.PreemptionHeld prior := by
  cases h with
  | configure _ hu => exact preemptionHeld_of_outside hs (by simp [ha.unconf hu]) (by simp) rfl
  | session _ hi => exact preemptionHeld_of_outside hs (by simp [ha.idle hi]) (by simp) rfl
  | window _ hi => exact preemptionHeld_of_outside hs (by simp [ha.idle hi]) (by simp) rfl
  | startSending _ _ _ hi => exact preemptionHeld_of_outside hs (by simp [ha.idle hi]) (by simp) rfl
  | _ => exact hs

theorem preemptionHeld_tickInvariant (prior : Bool) : TickInvariant (State.PreemptionHeld prior) where
  inner _ := Iff.rfl
  phase := PhaseMove.keeps_preemptionHeld
  port := PortMove.keeps_preemptionHeld
  endTick _ _ hs := hs

/-- Settles O53: the moves that enter a critical section save `ie`, and those that leave it restore what was saved. -/
theorem stepKeepsThePreemptionState : Obligations.StepKeepsThePreemptionState :=
  fun prior _ _ hs h => (preemptionHeld_tickInvariant prior).step hs h

/-! ### The port register -/

/-- An operation on the port for which the sequencer does not send. -/
def PortOp.Waiting (p : PortOp) : Prop :=
  p.instr.isRequest = true ∧ p.stage ≠ .sending ∧ (p.stage ≠ .new → p.instr = .readU16)

theorem isRequest_of_sentBytes {c : Config} {i : Instr} (h : (sentBytes c i).isSome = true) : i.isRequest = true := by
  cases i <;> simp [sentBytes] at h <;> rfl

/-- The port register while the sequencer sends for it. -/
theorem portFollowsPhase_of_sends {s : State} (h : s.sendsForPort) :
    s.PortFollowsPhase ↔ ∃ p, s.port = some p ∧ p.stage = .sending ∧ (sentBytes s.cfg p.instr).isSome = true := by
  constructor
  · rintro ⟨hsend, _, _, hport⟩
    obtain ⟨p, hp, hst⟩ := Option.map_eq_some_iff.1 (hsend.1 h)
    exact ⟨p, hp, hst, (hport p hp).2.1 hst⟩
  · rintro ⟨p, hp, hst, hb⟩
    refine ⟨⟨fun _ => by rw [hp, Option.map_some, hst], fun _ => h⟩, fun hn => absurd h hn, fun hu => ?_,
      fun q hq => ?_⟩
    · rcases h with h | ⟨h, _⟩ <;> rw [hu] at h <;> cases h
    · obtain rfl : p = q := by rw [hp] at hq; exact Option.some.inj hq
      exact ⟨isRequest_of_sentBytes hb, fun _ => hb, fun _ hn => absurd hst hn⟩

/-- The port register while the sequencer does not send for it. -/
theorem portFollowsPhase_of_not_sends {s : State} (h : ¬ s.sendsForPort) :
    s.PortFollowsPhase ↔
      s.pend = [] ∧ (s.phase = .unconf → s.port = none) ∧ ∀ p, s.port = some p → p.Waiting := by
  constructor
  · rintro ⟨hsend, hpend, hunc, hport⟩
    refine ⟨hpend h, hunc, fun p hp => ?_⟩
    have hst : p.stage ≠ .sending := fun e => h (hsend.2 (by rw [hp, Option.map_some, e]))
    obtain ⟨hreq, _, hhi⟩ := hport p hp
    exact ⟨hreq, hst, fun hn => hhi hn hst⟩
  · rintro ⟨hpend, hunc, hport⟩
    refine ⟨⟨fun hc => absurd hc h, fun he => ?_⟩, fun _ => hpend, hunc, fun p hp => ?_⟩
    · obtain ⟨p, hp, hst⟩ := Option.map_eq_some_iff.1 he
      exact absurd hst (hport p hp).2.1
    · obtain ⟨hreq, hst, hhi⟩ := hport p hp
      exact ⟨hreq, fun e => absurd e hst, fun hn _ => hhi hn⟩

/-- A free port while the sequencer does not send for it. -/
theorem portFollowsPhase_of_free {s : State} (h : ¬ s.sendsForPort) (hpend : s.pend = []) (hfree : s.port = none) :
    s.PortFollowsPhase :=
  (portFollowsPhase_of_not_sends h).2 ⟨hpend, fun _ => hfree, fun p hp => by rw [hfree] at hp; cases hp⟩

/-- R162 with nothing left to send. -/
theorem actOpseq_of_nil {s : State} (h : s.pend = []) : actOpseq s = { s with phase := .idle } := by
  simp only [actOpseq, h]

/-- The sequencer goes on sending for the port until OPSEQ finds nothing left (R160, R162). -/
theorem phaseAction_of_sends {s u : State} (hs : s.sendsForPort) (h : phaseAction s = .ok u) :
    (s.phase = .opseq ∧ s.pend = [] ∧ u = { s with phase := .idle }) ∨
      (¬ (s.phase = .opseq ∧ s.pend = []) ∧ u.sendsForPort) := by
  by_cases hend : s.phase = .opseq ∧ s.pend = []
  · simp only [phaseAction, hend.1, actOpseq_of_nil hend.2, Except.ok.injEq] at h
    exact .inl ⟨hend.1, hend.2, h.symm⟩
  · refine .inr ⟨hend, ?_⟩
    cases phaseAction_move h with
    | stay => exact hs
    | slot => exact hs
    | sentByte hp =>
      have hret : s.txRet = .opseq := by simpa [State.sendsForPort, hp] using hs
      exact .inl (congrArg TxRet.phase hret)
    | nextByte => exact .inr ⟨rfl, rfl⟩
    | allSent hp hpend => exact absurd ⟨hp, hpend⟩ hend
    | _ =>
      -- the action of a phase in which nothing is sent for the port
      simp_all [State.sendsForPort]

/-- No phase action begins to send for the port, and `pend` is taken from only by a send for the port (R41, R162). -/
theorem PhaseMove.not_sends {s u : State} (h : PhaseMove s u) (hs : ¬ s.sendsForPort) :
    ¬ u.sendsForPort ∧ u.pend = s.pend := by
  cases h with
  | stay => exact ⟨hs, rfl⟩
  | remember => exact ⟨hs, rfl⟩
  | dataBit => exact ⟨hs, rfl⟩
  | slot => exact ⟨hs, rfl⟩
  | sentByte hp =>
    have hret : s.txRet = .flush := by
      cases hr : s.txRet with
      | flush => rfl
      | opseq => exact absurd (.inr ⟨hp, hr⟩) hs
    exact ⟨by simp [State.sendsForPort, hret, TxRet.phase], rfl⟩
  | nextByte b rest hp => exact absurd (.inl hp) hs
  | _ => exact ⟨by simp [State.sendsForPort], rfl⟩

/-- The evaluation of an operation that the sequencer sends for: it ends at the tick at which OPSEQ finds nothing left,
and holds at every other (R117, R182). -/
theorem PortMove.of_sending {p : PortOp} {s t : State} (h : PortMove p s t) (hst : p.stage = .sending)
    (hb : (sentBytes s.cfg p.instr).isSome = true) :
    (s.atStart.phase = .opseq ∧ s.atStart.pend = [] ∧ t = s.complete 0) ∨
      (¬ (s.atStart.phase = .opseq ∧ s.atStart.pend = []) ∧ t = s) := by
  have other : ∀ {i : Instr}, p.instr = i → (sentBytes s.cfg i).isSome = false → False := by
    intro i hi hn
    rw [hi, hn] at hb
    cases hb
  cases h with
  | hold hn => exact .inr ⟨hn hst hb, rfl⟩
  | sent _ _ hp hpend => exact .inl ⟨hp, hpend, rfl⟩
  | answer r hi => rcases hi with hi | hi | hi <;> exact (other hi rfl).elim
  | configure hi => exact (other hi rfl).elim
  | reconfigure hi => exact (other hi rfl).elim
  | popAnswer v q r hi => rcases hi with hi | ⟨hi | hi, _⟩ <;> exact (other hi rfl).elim
  | popHigh v q hi => exact (other hi rfl).elim
  | session hi => rcases hi with hi | hi <;> exact (other hi rfl).elim
  | window hi => exact (other hi rfl).elim
  | defer q _ hnew => rw [hst] at hnew; cases hnew
  | startSending _ hnew => rw [hst] at hnew; cases hnew

/-- The evaluation of a waiting operation. -/
theorem PortMove.portFollowsPhase_of_waiting {p : PortOp} {s t : State} (h : PortMove p s t) (ha : s.AfterPhase)
    (hport : s.port = some p) (hw : p.Waiting) (hs : ¬ s.sendsForPort) (hpend : s.pend = [])
    (hunc : s.atStart.phase = .unconf → p.instr = .begin_ ∨ p.instr = .getStatus) : t.PortFollowsPhase := by
  have hlisten : ¬ s.sessionStart.sendsForPort := by simp [State.sendsForPort]
  cases h with
  | hold _ hnget hnbegin =>
    refine (portFollowsPhase_of_not_sends hs).2 ⟨hpend, fun hu => ?_, fun q hq => ?_⟩
    · have hstart := ha.2 hu
      rcases hunc hstart with hi | hi
      · exact absurd hstart (hnbegin hi)
      · exact absurd hi hnget
    · rw [hport] at hq
      cases hq
      exact hw
  | answer => exact portFollowsPhase_of_free hs hpend rfl
  | configure => exact portFollowsPhase_of_free (by simp [State.sendsForPort]) hpend rfl
  | reconfigure => exact portFollowsPhase_of_free hs hpend rfl
  | popAnswer => exact portFollowsPhase_of_free hs hpend rfl
  | popHigh v q hi _ hidle =>
    refine (portFollowsPhase_of_not_sends (by exact hs)).2 ⟨hpend, fun hu => ?_, fun r hr => ?_⟩
    · have hp : s.phase = .unconf := hu
      rw [ha.idle hidle] at hp
      cases hp
    · cases hr
      exact ⟨hw.1, by simp, fun _ => hi⟩
  | session =>
    refine (portFollowsPhase_of_not_sends hlisten).2 ⟨hpend, fun hu => (by cases hu), fun q hq => ?_⟩
    rw [State.sessionStart_port, hport] at hq
    cases hq
    exact hw
  | window => exact portFollowsPhase_of_free hlisten hpend rfl
  | defer => exact portFollowsPhase_of_free hs hpend rfl
  | startSending hb => exact (portFollowsPhase_of_sends (.inl rfl)).2 ⟨_, rfl, rfl, hb⟩
  | sent _ hst => exact absurd hst hw.2.1

/-- A tick in which the sequencer sends for the port: the send ends at the port exactly when it ends in OPSEQ. -/
theorem tick_keeps_port_of_sends {s u v : State} (hs : s.sendsForPort) (hf : s.PortFollowsPhase)
    (hu : phaseAction s.beginTick = .ok u) (hv : portTurn u = .next v) : v.PortFollowsPhase := by
  obtain ⟨p, hp, hst, hb⟩ := (portFollowsPhase_of_sends hs).1 hf
  obtain ⟨hstart, hport, hcfg, -⟩ := (phaseAction_move hu).frame
  have hup : u.port = some p := hport.trans hp
  have hub : (sentBytes u.cfg p.instr).isSome = true := by rw [hcfg]; exact hb
  have hm : PortMove p u v := portTurn_of_busy hup (isRequest_of_sentBytes hb) hv
  have hatPhase : u.atStart.phase = s.phase := by rw [hstart]; rfl
  have hatPend : u.atStart.pend = s.pend := by rw [hstart]; rfl
  rcases phaseAction_of_sends (s := s.beginTick) hs hu with ⟨hp1, hp2, rfl⟩ | ⟨hn, hsend⟩
  · rcases hm.of_sending hst hub with ⟨_, _, rfl⟩ | ⟨hn', _⟩
    · exact portFollowsPhase_of_free (by simp [State.sendsForPort]) hp2 rfl
    · exact absurd ⟨hp1, hp2⟩ hn'
  · rcases hm.of_sending hst hub with ⟨h1, h2, _⟩ | ⟨_, rfl⟩
    · exact absurd ⟨hatPhase.symm.trans h1, hatPend.symm.trans h2⟩ hn
    · exact (portFollowsPhase_of_sends hsend).2 ⟨p, hup, hst, hub⟩

/-- A tick in which the sequencer does not send for the port. -/
theorem tick_keeps_port_of_not_sends {s u v : State} (hs : ¬ s.sendsForPort) (hf : s.PortFollowsPhase)
    (hu : PhaseMove s.beginTick u) (hv : portTurn u = .next v) : v.PortFollowsPhase := by
  obtain ⟨hpend, hunc, hwait⟩ := (portFollowsPhase_of_not_sends hs).1 hf
  obtain ⟨hstart, hport, -⟩ := hu.frame
  obtain ⟨hus, hup⟩ := hu.not_sends hs
  have hupend : u.pend = [] := hup.trans hpend
  have hatPhase : u.atStart.phase = s.phase := by rw [hstart]; rfl
  have huwait : ∀ p, u.port = some p → p.Waiting := fun p hp => hwait p (hport.symm.trans hp)
  obtain ⟨before, after, w, rfl, hw⟩ := portTurn_cases (fun p hp => (huwait p hp).1) hv
  suffices w.PortFollowsPhase from this
  rcases hw with ⟨hn, rfl⟩ | ⟨_, code, word, len, rfl⟩ | ⟨p, hreq, hp, hm⟩
  · exact portFollowsPhase_of_free hus hupend hn
  · exact portFollowsPhase_of_free hus hupend rfl
  · rcases hp with hp | ⟨_, hnew, hlegal⟩
    · have hconf : u.atStart.phase ≠ .unconf := by
        intro hun
        rw [hatPhase] at hun
        have hfree : u.port = none := hport.trans (hunc hun)
        rw [hp] at hfree
        cases hfree
      exact hm.portFollowsPhase_of_waiting hu.afterPhase rfl (huwait p hp) hus hupend (fun hun => absurd hun hconf)
    · have hpw : p.Waiting := ⟨hreq, by simp [hnew], fun hn => absurd hnew hn⟩
      exact hm.portFollowsPhase_of_waiting hu.afterPhase rfl hpw hus hupend hlegal

/-- A tick goes by whether the sequencer sends for the port when it begins. -/
theorem tick_keeps_portFollowsPhase {s u v : State} (hu : phaseAction s.beginTick = .ok u)
    (hv : portTurn u = .next v) (hs : s.PortFollowsPhase) : v.PortFollowsPhase := by
  by_cases hsend : s.sendsForPort
  · exact tick_keeps_port_of_sends hsend hs hu hv
  · exact tick_keeps_port_of_not_sends hsend hs (phaseAction_move hu) hv

/-- Settles O52: a send for the port ends in the sequencer and at the port in the same tick, and only the port begins
one. -/
theorem stepKeepsThePortFollowingThePhase : Obligations.StepKeepsThePortFollowingThePhase := by
  intro s t hs h
  obtain ⟨_, hostIn, events, line, b, rfl, ⟨_, rfl⟩ | ⟨_, u, v, _, hu, hv, rfl⟩⟩ := step_cases h
  · exact hs
  · have hkept := tick_keeps_portFollowsPhase hu hv hs
    exact hkept

/-! ### Time -/

/-- What a tick of the block that answers a next state passed through (R140, R141). -/
theorem blockTurn_cases {s t : State} (h : blockTurn s = .next t) :
    (s.fault ≠ none ∧ t = s.faultedTick) ∨
      (s.fault = none ∧ ∃ u v, phaseAction s.beginTick = .ok u ∧ portTurn u = .next v ∧ t = s.endTick v) := by
  unfold blockTurn at h
  split_ifs at h with hf
  · cases h
    exact .inl ⟨hf, rfl⟩
  · split at h
    · cases h
    · rename_i u hu
      obtain ⟨v, hv, ht⟩ := andThen_eq_next h
      cases ht
      exact .inr ⟨not_not.1 hf, u, v, hu, hv, rfl⟩

/-- The counter at the end of a tick (R33). -/
theorem State.endTick_counter_of_running {start s : State} (h : start.cntRun = true) :
    (start.endTick s).counter = (s.counter + 1) % 2 ^ s.cfg.counterWidth := by
  simp [h]

theorem State.endTick_counter_of_stopped {start s : State} (h : start.cntRun = false) :
    (start.endTick s).counter = start.counter := by
  simp [h]

/-- Settles O45: neither the peer nor the port touches `now` and the counter, and the phase action restarts the counter
or leaves it. -/
theorem ticksAdvanceNowAndTheCounter : Obligations.TicksAdvanceNowAndTheCounter := by
  intro s t h
  obtain ⟨hostIn, events, line, hdec, hdrv, hstep⟩ := step_eq (step_cases h).1
  rw [hstep] at h
  rcases blockTurn_cases h with ⟨hf, rfl⟩ | ⟨hf, u, v, hu, hv, rfl⟩
  · exact ⟨rfl, rfl, fun _ => rfl, fun _ hn => absurd hn hf⟩
  · obtain ⟨_, _, hucfg, _, hunow, _, _, _, _, _, _, hucnt⟩ := (phaseAction_move hu).frame
    obtain ⟨hvcfg, hvnow, hvcnt⟩ := portTurn_frame hv
    have hcfg : v.cfg = s.cfg := hvcfg.trans hucfg
    have hnow : v.now = s.now := hvnow.trans hunow
    refine ⟨congrArg (· + 1) hnow, hcfg, fun hstop => ?_, fun hrun _ => ⟨_, _, u, hdec, hdrv, hu, hucnt, ?_⟩⟩
    · rcases hstop with hstop | hn
      · exact State.endTick_counter_of_stopped hstop
      · exact absurd hf hn
    · exact (State.endTick_counter_of_running (by exact hrun)).trans (by rw [hvcnt, hcfg])

/-! ### Reset -/

/-- Settles O48: each value stands in the definition of the reset state. -/
theorem resetStateHasTheGivenValues : Obligations.ResetStateHasTheGivenValues :=
  ⟨rfl, rfl, rfl, rfl, rfl, rfl, rfl, rfl, rfl, rfl, rfl, rfl, rfl, rfl, rfl, rfl, rfl, rfl⟩

theorem reset_buffersInRange : State.reset.BuffersInRange := by
  obtain ⟨hrx, htx⟩ := State.reset_wf
  exact ⟨⟨by decide, by decide, hrx, by simp [State.reset]⟩, ⟨by decide, by decide, htx, by simp [State.reset]⟩,
    by decide, by decide⟩

/-- Settles O54: every invariant by its clause for UNCONF. -/
theorem resetMeetsTheInvariants : Obligations.ResetMeetsTheInvariants := by
  refine ⟨by decide, reset_buffersInRange, ?_, ?_, ?_⟩
  · exact (pinsFollowPhase_unconf rfl).2 ⟨rfl, rfl, rfl, rfl, rfl⟩
  · exact portFollowsPhase_of_free (by decide) rfl rfl
  · exact (preemptionHeld_outside (by decide)).2 rfl

/-! ### The receive input -/

/-- A level that is the peer's turn is what the pin reads (R42). -/
theorem State.rxIn_of_level {s : State} {p : Pin} {line : List LineItem} (h : s.peerLine = .level p :: line) :
    s.rxIn = p := by
  simp only [State.rxIn, h]

/-- Settles O60: one clause a level. -/
theorem sampleFollowsTheLineAndThePullUp : Obligations.SampleFollowsTheLineAndThePullUp := by
  intro s p line h
  have hin := State.rxIn_of_level h
  cases p with
  | low => simp [State.sample, hin]
  | high => simp [State.sample, hin]
  | z => simp +contextual [State.sample, hin]

end Sys2Proof.Machine
end

section
/-! PROOFS. Memory and the circular buffers (spec 20_memory.md). A slot reads back what was written (R57); the count is
the number of indices from `tail` up to `head` (R60); with these two, a push appends to `Ring.contents` and a pop takes
its front (R61), and a run of pushes follows by induction on the bytes. -/

namespace Sys2Proof.Machine

/-! ### Slots -/

/-- R57. Beyond the place where `write` stops, the canonical form says that no pair is listed for the index. -/
theorem Memory.read_write {m : Memory} (i a : Nat) (v : Byte) (h : m.wf = true) :
    Memory.read (m.write i v) a = if a = i then v else Memory.read m a := by
  induction m with
  | nil =>
    by_cases hv : v = unwrittenSlot
    · simp [Memory.write, Memory.read, hv]
    · simp [Memory.write, Memory.read, hv, eq_comm]
  | cons p m ih =>
    obtain ⟨k, w⟩ := p
    obtain ⟨hlt, -, hm⟩ := (Memory.wf_cons _ _).1 h
    have hread : ∀ x, x ≤ k → Memory.read m x = unwrittenSlot :=
      fun x hx => Memory.read_of_lt fun q hq => Nat.lt_of_le_of_lt hx (hlt q hq)
    by_cases hai : a = i
    · subst hai
      simp only [Memory.write, if_true]
      split_ifs with hka hka' hv hv
      · simp [Memory.read, hka.ne, ih hm]
      · rw [hread a (by omega), hv]
      · simp [Memory.read]
      · rw [Memory.read, if_neg hka', hread a (by omega), hv]
      · simp [Memory.read]
    · simp only [Memory.write, if_neg hai]
      split_ifs with hki hki' hv hv
      · simp only [Memory.read, ih hm, if_neg hai]
      · rw [Memory.read, if_neg (by omega)]
      · rw [Memory.read, Memory.read, if_neg (Ne.symm hai), if_neg (by omega)]
      · rfl
      · rw [Memory.read, if_neg (Ne.symm hai)]

/-- Settles O7, by induction on the slots. -/
theorem slotReadsBackWhatWasWritten : Obligations.SlotReadsBackWhatWasWritten :=
  fun _ i a v h => Memory.read_write i a v h

/-! ### The count -/

section
variable {cap : Nat} {r : Ring}

theorem Ring.count_lt (hh : r.head < cap) (ht : r.tail < cap) : r.count cap < cap := by
  rw [Ring.count_eq hh ht]
  split_ifs <;> omega

theorem Ring.count_eq_zero_iff (hh : r.head < cap) (ht : r.tail < cap) : r.count cap = 0 ↔ r.head = r.tail := by
  rw [Ring.count_eq hh ht]
  split_ifs <;> omega

/-- The slot `j` on from `tail` is `head` exactly when `j` is the count. -/
theorem Ring.index_eq_head_iff {j : Nat} (hh : r.head < cap) (ht : r.tail < cap) (hj : j < cap) :
    (r.tail + j) % cap = r.head ↔ j = r.count cap := by
  rw [Ring.count_eq hh ht, indexAdd_eq ht hj.le]
  split_ifs <;> omega

/-- The full test of R30: one slot stays free. -/
theorem Ring.full_iff_count (hh : r.head < cap) (ht : r.tail < cap) :
    (r.head + 1) % cap = r.tail ↔ r.count cap = cap - 1 := by
  rw [Ring.count_eq hh ht, nextIndex_eq hh]
  split_ifs <;> omega

/-- The count after a push that stores, whatever the slots. -/
theorem Ring.count_of_head_moved {r' : Ring} (hh : r.head < cap) (ht : r.tail < cap)
    (hfull : (r.head + 1) % cap ≠ r.tail) (hhead : r'.head = (r.head + 1) % cap) (htail : r'.tail = r.tail) :
    r'.count cap = r.count cap + 1 := by
  rw [nextIndex_eq hh] at hfull hhead
  rw [Ring.count_eq hh ht, Ring.count_eq (by split_ifs at hhead <;> omega) (by omega), hhead, htail]
  split_ifs at hfull ⊢ <;> omega

/-- The count before a pop that takes a byte. -/
theorem Ring.count_of_tail_moved {r' : Ring} (hh : r.head < cap) (ht : r.tail < cap) (hempty : r.head ≠ r.tail)
    (hhead : r'.head = r.head) (htail : r'.tail = (r.tail + 1) % cap) : r.count cap = r'.count cap + 1 := by
  rw [nextIndex_eq ht] at htail
  rw [Ring.count_eq hh ht, Ring.count_eq (by omega) (by split_ifs at htail <;> omega), hhead, htail]
  split_ifs <;> omega

end

/-- Settles O9: `head` is the slot a count on from `tail`. -/
theorem countIsTheIndexDifference : Obligations.CountIsTheIndexDifference := by
  intro cap r _ hh ht
  have hlt := Ring.count_lt hh ht
  exact ⟨Nat.le_sub_one_of_lt hlt, (Ring.index_eq_head_iff hh ht hlt).2 rfl, Ring.count_eq_zero_iff hh ht⟩

/-! ### One push and one pop -/

/-- Settles O8: the two cases of a push and of a pop of a buffer in range, with R57 for the slot stored. -/
theorem pushAndPopFollowTheIndices : Obligations.PushAndPopFollowTheIndices := by
  intro cap b r h
  refine ⟨fun v => ⟨_, Ring.push_of_ok h, ?_⟩, Ring.pop_of_ok h⟩
  obtain ⟨-, -, hwf, -⟩ := h
  by_cases hfull : (r.head + 1) % cap = r.tail
  · simp only [if_pos hfull, and_self]
  · simp only [if_neg hfull, true_and]
    exact fun a => Memory.read_write r.head a v hwf

/-! ### The bytes a buffer holds -/

section
variable {cap : Nat} {b : Buffer} {r r' : Ring}

@[simp] theorem Ring.contents_length : (r.contents cap).length = r.count cap := by
  simp [Ring.contents]

/-- A push appends its byte to what the buffer holds, unless `CAP - 1` bytes are in it (R58, R61). -/
theorem Ring.contents_push {v : Byte} (h : r.Ok cap) (hp : r.push cap b v = .ok r') :
    r'.contents cap = if (r.contents cap).length < cap - 1 then r.contents cap ++ [v] else r.contents cap := by
  obtain ⟨hh, ht, hwf, -⟩ := h
  have hlt := Ring.count_lt hh ht
  rw [Ring.contents_length]
  rcases Ring.push_cases hp with ⟨hfull, rfl⟩ | ⟨hfull, -, rfl⟩
  · rw [if_neg (by have := (Ring.full_iff_count hh ht).1 hfull; omega)]
  · rw [if_pos (by have := mt (Ring.full_iff_count hh ht).2 hfull; omega)]
    -- the new byte stands a count on from `tail`; the older slots are others
    have hcount : Ring.count cap { r with slots := r.slots.write r.head v, head := (r.head + 1) % cap } =
        r.count cap + 1 := Ring.count_of_head_moved hh ht hfull rfl rfl
    simp only [Ring.contents, hcount, List.range_succ, List.map_append, List.map_singleton,
      Memory.read_write _ _ _ hwf]
    refine congrArg₂ (· ++ ·) (List.map_congr_left fun j hj => ?_) ?_
    · have hj := List.mem_range.1 hj
      rw [if_neg fun e => hj.ne ((Ring.index_eq_head_iff hh ht (hj.trans hlt)).1 e)]
    · rw [if_pos ((Ring.index_eq_head_iff hh ht hlt).2 rfl)]

theorem Ring.contents_of_empty (h : r.Ok cap) (he : r.head = r.tail) : r.contents cap = [] := by
  obtain ⟨hh, ht, -⟩ := h
  rw [← List.length_eq_zero_iff, Ring.contents_length]
  exact (Ring.count_eq_zero_iff hh ht).2 he

/-- Moving `tail` on drops the front of what the buffer holds (R59, R61). -/
theorem Ring.contents_of_tail_moved (h : r.Ok cap) (hempty : r.head ≠ r.tail) :
    r.contents cap =
      Memory.read r.slots r.tail :: Ring.contents cap { r with tail := (r.tail + 1) % cap } := by
  obtain ⟨hh, ht, -⟩ := h
  have hshift : ∀ j, (r.tail + (j + 1)) % cap = ((r.tail + 1) % cap + j) % cap := fun j => by
    rw [Nat.mod_add_mod, Nat.add_assoc, Nat.add_comm j 1]
  have hcount : r.count cap = Ring.count cap { r with tail := (r.tail + 1) % cap } + 1 :=
    Ring.count_of_tail_moved hh ht hempty rfl rfl
  rw [Ring.contents, hcount, List.range_succ_eq_map, List.map_cons, List.map_map, Nat.add_zero,
    Nat.mod_eq_of_lt ht]
  exact congrArg _ (List.map_congr_left fun j _ => congrArg (Memory.read r.slots) (hshift j))

end

/-- Settles O10: a push appends to the contents or drops its byte, a pop takes their front. -/
theorem buffersAreFirstInFirstOut : Obligations.BuffersAreFirstInFirstOut := by
  intro cap b r _ h
  refine ⟨fun v => ?_, ?_⟩
  · have hp := Ring.push_of_ok (b := b) (v := v) h
    exact ⟨_, hp, Ring.push_keeps_ok h hp, Ring.contents_push h hp⟩
  · have hp := Ring.pop_of_ok (b := b) h
    split_ifs at hp with he
    · exact ⟨none, r, hp, h, Ring.contents_of_empty h he, rfl⟩
    · exact ⟨some _, _, hp, Ring.pop_keeps_ok h hp, Ring.contents_of_tail_moved h he⟩

/-! ### A run of pushes -/

/-- What a buffer that is not read holds after a run of pushes: the first `CAP - 1` bytes of what it held and what was
pushed (R61). -/
theorem Ring.contents_pushAll {cap : Nat} {b : Buffer} (vs : List Byte) :
    ∀ {r r' : Ring}, r.Ok cap → r.pushAll cap b vs = .ok r' →
      r'.contents cap = (r.contents cap ++ vs).take (cap - 1) := by
  induction vs with
  | nil =>
    intro r r' h hp
    obtain ⟨hh, ht, -⟩ := h
    cases hp
    have hlt := Ring.count_lt hh ht
    rw [List.append_nil, List.take_of_length_le (by rw [Ring.contents_length]; omega)]
  | cons v vs ih =>
    intro r r' h hp
    have hpush := Ring.push_of_ok (b := b) (v := v) h
    rw [Ring.pushAll, hpush] at hp
    rw [ih (Ring.push_keeps_ok h hpush) hp, Ring.contents_push h hpush]
    split_ifs with hroom
    · rw [List.append_assoc, List.singleton_append]
    · -- what the buffer held fills it
      rw [not_lt] at hroom
      rw [List.take_append_of_le_length hroom, List.take_append_of_le_length hroom]

/-- Settles O11: the case of a buffer that held nothing. -/
theorem overfullBufferKeepsTheFirstBytes : Obligations.OverfullBufferKeepsTheFirstBytes := by
  intro cap b r bytes _ h he
  obtain ⟨r', hp, -, -⟩ := Ring.pushAll_ok (b := b) bytes h
  refine ⟨r', hp, ?_⟩
  rw [Ring.contents_pushAll bytes h hp, Ring.contents_of_empty h he, List.nil_append]

end Sys2Proof.Machine
end

section
/-! PROOFS. The encoding (spec 30_encoding.md). What the request decoder makes of a word is said once, as the three
readings of `RequestReading`; acceptance, rejection and the order of the checks follow from it. An outbound frame is read
back by the scanner of its start marker, and a character by the bits of its slots. On the RX line, both inbound formats
are lists of blocks of one length. -/

namespace Sys2Proof.Machine

/-! ### What a request reads as -/

theorem mem_listedOps_of_mem_zeroImmOps {op : Byte} (h : op ∈ zeroImmOps) : op ∈ listedOps :=
  (by decide : ∀ x ∈ zeroImmOps, x ∈ listedOps) op h

/-- The checks (1) to (3) of R88 on the request `(w, payload)`: what the decoder may answer, and what that says of the
request. -/
inductive RequestReading (c : Config) (w : Word16) (payload : List Byte) : Except DecodeError Instr → Prop
  | illegal : ReservedRequest w → RequestReading c w payload (.error .illegalOp)
  | badPayload : ¬ ReservedRequest w → ¬ LegalPayload c w payload → RequestReading c w payload (.error .badOperand)
  | accepted (i : Instr) : ¬ ReservedRequest w → encode c i = .request w payload →
      (i.wellFormed c = true ↔ LegalPayload c w payload) → RequestReading c w payload (.ok i)

theorem reservedRequest_opWord {op imm : Byte} :
    ReservedRequest (opWord op imm) ↔ op ∉ listedOps ∨ (op ∈ zeroImmOps ∧ imm ≠ 0) := by
  rw [ReservedRequest, opField_opWord, immField_opWord]

/-- R86 for SEND_LINE. -/
theorem legalPayload_sendLine {c : Config} {imm : Byte} {payload : List Byte} :
    LegalPayload c (opWord 0x11 imm) payload ↔ payload.length = imm.toNat ∧ imm.toNat ≤ c.maxLine := by
  simp [LegalPayload]

/-- R86 for the operations other than SEND_LINE and SEND_DEBUG. -/
theorem legalPayload_of_ne {c : Config} {op imm : Byte} {payload : List Byte} (hline : op ≠ 0x11)
    (hdebug : op ≠ 0x12) : LegalPayload c (opWord op imm) payload ↔ payload = [] := by
  rw [LegalPayload, opField_opWord]
  exact ⟨fun h => h.2 hline hdebug, fun h => ⟨fun e => absurd e hline, fun _ _ => h⟩⟩

/-- The operations without operand. -/
theorem plainRequest_reading {c : Config} {op imm : Byte} {payload : List Byte} {i : Instr} (hop : op ∈ zeroImmOps)
    (hline : op ≠ 0x11) (hdebug : op ≠ 0x12) (he : encode c i = .request (opWord op 0) [])
    (hwf : i.wellFormed c = true) : RequestReading c (opWord op imm) payload (plainRequest imm payload i) := by
  have hlegal := legalPayload_of_ne (c := c) (imm := imm) (payload := payload) hline hdebug
  by_cases himm : imm = 0
  · have hres : ¬ ReservedRequest (opWord op imm) := by
      simp [reservedRequest_opWord, mem_listedOps_of_mem_zeroImmOps hop, himm]
    rw [plainRequest, if_neg (not_not.2 himm)]
    split_ifs with hpayload
    · exact .badPayload hres (mt hlegal.1 hpayload)
    · obtain rfl := not_not.1 hpayload
      exact .accepted i hres (himm ▸ he) (iff_of_true hwf (hlegal.2 rfl))
  · rw [plainRequest, if_pos himm]
    exact .illegal (reservedRequest_opWord.2 (.inr ⟨hop, himm⟩))

/-- The operations whose operand is `imm8`. -/
theorem byteRequest_reading {c : Config} {op imm : Byte} {payload : List Byte} {i : Instr} (hlisted : op ∈ listedOps)
    (hop : op ∉ zeroImmOps) (hline : op ≠ 0x11) (he : encode c i = .request (opWord op imm) [])
    (hwf : i.wellFormed c = true) : RequestReading c (opWord op imm) payload (byteRequest payload i) := by
  have hdebug : op ≠ 0x12 := fun h => hop (by simp [h, zeroImmOps])
  have hlegal := legalPayload_of_ne (c := c) (imm := imm) (payload := payload) hline hdebug
  have hres : ¬ ReservedRequest (opWord op imm) := by simp [reservedRequest_opWord, hlisted, hop]
  unfold byteRequest
  split_ifs with hpayload
  · exact .badPayload hres (mt hlegal.1 hpayload)
  · obtain rfl := not_not.1 hpayload
    exact .accepted i hres he (iff_of_true hwf (hlegal.2 rfl))

/-- SEND_LINE: check (3) of R88 is the length, and `MAX_LINE` is left to `Instr.wellFormed`. -/
theorem sendLine_reading (c : Config) (imm : Byte) (payload : List Byte) :
    RequestReading c (opWord 0x11 imm) payload
      (if payload.length ≠ imm.toNat then .error .badOperand else .ok (.sendLine payload)) := by
  have hres : ¬ ReservedRequest (opWord 0x11 imm) := by simp [reservedRequest_opWord, listedOps, zeroImmOps]
  split_ifs with hlen
  · exact .badPayload hres fun hl => hlen (legalPayload_sendLine.1 hl).1
  · have hlen := not_not.1 hlen
    refine .accepted _ hres ?_ ?_
    · simp [encode, hlen]
    · rw [legalPayload_sendLine, Instr.wellFormed, decide_eq_true_iff, hlen]
      exact ⟨fun h => ⟨rfl, h⟩, And.right⟩

/-- SEND_DEBUG: any payload. -/
theorem sendDebug_reading (c : Config) (imm : Byte) (payload : List Byte) :
    RequestReading c (opWord 0x12 imm) payload
      (if imm ≠ 0 then .error .illegalOp else .ok (.sendDebug payload)) := by
  split_ifs with himm
  · exact .illegal (reservedRequest_opWord.2 (.inr ⟨by decide, himm⟩))
  · obtain rfl := not_not.1 himm
    exact .accepted _ (by simp [reservedRequest_opWord, listedOps]) rfl (by simp [Instr.wellFormed, LegalPayload])

/-- R82, by its rows: every request is read in one of the three ways. -/
theorem decode_request_reading (c : Config) (w : Word16) (payload : List Byte) :
    RequestReading c w payload (decode c (.request w payload)) := by
  obtain ⟨op, imm, rfl⟩ : ∃ op imm, w = opWord op imm := ⟨_, _, (opWord_fields w).symm⟩
  have hop : ∀ {k : Byte}, op.toNat = k.toNat → op = k := BitVec.eq_of_toNat_eq
  rw [decode, decodeRequest_opWord]
  split
  next h => obtain rfl := hop (k := 0x01) h; exact plainRequest_reading (by decide) (by decide) (by decide) rfl rfl
  next h => obtain rfl := hop (k := 0x02) h; exact plainRequest_reading (by decide) (by decide) (by decide) rfl rfl
  next h => obtain rfl := hop (k := 0x03) h; exact plainRequest_reading (by decide) (by decide) (by decide) rfl rfl
  next h => obtain rfl := hop (k := 0x04) h; exact byteRequest_reading (by decide) (by decide) (by decide) rfl rfl
  next h => obtain rfl := hop (k := 0x05) h; exact plainRequest_reading (by decide) (by decide) (by decide) rfl rfl
  next h => obtain rfl := hop (k := 0x06) h; exact plainRequest_reading (by decide) (by decide) (by decide) rfl rfl
  next h => obtain rfl := hop (k := 0x07) h; exact plainRequest_reading (by decide) (by decide) (by decide) rfl rfl
  next h => obtain rfl := hop (k := 0x10) h; exact byteRequest_reading (by decide) (by decide) (by decide) rfl rfl
  next h => obtain rfl := hop (k := 0x11) h; exact sendLine_reading c imm payload
  next h => obtain rfl := hop (k := 0x12) h; exact sendDebug_reading c imm payload
  next h => obtain rfl := hop (k := 0x13) h; exact plainRequest_reading (by decide) (by decide) (by decide) rfl rfl
  next h => obtain rfl := hop (k := 0x14) h; exact plainRequest_reading (by decide) (by decide) (by decide) rfl rfl
  next h => obtain rfl := hop (k := 0x15) h; exact plainRequest_reading (by decide) (by decide) (by decide) rfl rfl
  next =>
    refine .illegal (.inl fun hmem => ?_)
    rw [opField_opWord] at hmem
    have := List.mem_map_of_mem (f := BitVec.toNat) hmem
    simp_all [listedOps]

/-- Settles O2: the reading of an accepted request. -/
theorem decodedRequestsEncodeToTheirWord : Obligations.DecodedRequestsEncodeToTheirWord := by
  intro c w payload i hd
  have hr := decode_request_reading c w payload
  rw [hd] at hr
  cases hr with
  | accepted _ _ he _ => exact he

/-- Settles O3: of the three readings only the illegal one is of a reserved request. -/
theorem reservedRequestsAreIllegal : Obligations.ReservedRequestsAreIllegal := by
  intro c w payload
  have hr := decode_request_reading c w payload
  generalize decode c (.request w payload) = e at hr
  cases hr with
  | illegal hres => simp only [hres]
  | badPayload hres _ => simp [hres]
  | accepted _ hres _ _ => simp [hres]

/-- Settles O4: the readings of a request that is not reserved. -/
theorem payloadLegalityDecidesAcceptance : Obligations.PayloadLegalityDecidesAcceptance := by
  intro c w payload hn
  have hr := decode_request_reading c w payload
  generalize decode c (.request w payload) = e at hr
  cases hr with
  | illegal hres => exact absurd hres hn
  | badPayload _ hl => exact ⟨iff_of_false hl (fun ⟨_, h, _⟩ => by cases h), .inl rfl⟩
  | accepted i _ _ hwf =>
    refine ⟨⟨fun hl => ⟨i, rfl, hwf.2 hl⟩, fun ⟨j, hj, hw⟩ => ?_⟩, .inr ⟨i, rfl⟩⟩
    cases hj
    exact hwf.1 hw

/-! ### The checks on a presented request -/

section
variable {w : Word16} {payload : List Byte} {s : State}

theorem presentRequest_of_reserved (h : ReservedRequest w) :
    presentRequest w payload s = .next (s.raise .illegalOp w none) := by
  rw [presentRequest, (reservedRequestsAreIllegal s.cfg w payload).2 h]

theorem presentRequest_of_illegalPayload (hn : ¬ ReservedRequest w) (hl : ¬ LegalPayload s.cfg w payload) :
    presentRequest w payload s = .next (s.raise .badOperand w (some payload.length)) := by
  have hr := decode_request_reading s.cfg w payload
  rw [presentRequest]
  generalize decode s.cfg (.request w payload) = e at hr
  cases hr with
  | illegal hres => exact absurd hres hn
  | badPayload => rfl
  | accepted i _ _ hwf => exact if_neg (mt hwf.1 hl)

/-- A request that passes the checks (1) to (3) is evaluated. -/
theorem presentRequest_of_legal (hn : ¬ ReservedRequest w) (hl : LegalPayload s.cfg w payload) :
    ∃ i, decode s.cfg (.request w payload) = .ok i ∧ presentRequest w payload s = exec i s := by
  obtain ⟨i, hd, hwf⟩ := ((payloadLegalityDecidesAcceptance s.cfg w payload hn).1).1 hl
  exact ⟨i, hd, by rw [presentRequest, hd]; exact if_pos hwf⟩

/-- Check (4) of R88, for an operation that needs BEGIN. -/
theorem portOperation_of_unconf {i : Instr} {frame : List Byte} {body : PortOp → State → Except Fault State}
    (hp : s.port = none) (hu : s.atStart.phase = .unconf) :
    portOperation i frame true body s = .next (s.raise .notConfigured (requestWord s.cfg i) none) := by
  simp [portOperation, hp, hu]

/-- Check (4) of R88: the operations that need BEGIN are all but BEGIN and GET_STATUS. -/
theorem exec_of_unconf {i : Instr} (hi : i.isRequest = true) (hbegin : i ≠ .begin_) (hstatus : i ≠ .getStatus)
    (hp : s.port = none) (hu : s.atStart.phase = .unconf) :
    exec i s = .next (s.raise .notConfigured (requestWord s.cfg i) none) := by
  cases i with
  | begin_ => exact absurd rfl hbegin
  | getStatus => exact absurd rfl hstatus
  | available | read | write | update | getFe | sendKey | sendLine | sendDebug | sendReady | readU8 | readU16 =>
    simp only [exec, execAvailable, execRead, execWrite, execUpdate, execGetFe, execSendKey, execSendLine, execSendDebug,
      execSendReady, execReadU8, execReadU16, portOperation_of_unconf hp hu]
  | keyFrame | lineFrame | debugFrame | readyFrame | commandFrameIn | serialChar => cases hi

end

/-- Settles O5: the clauses are the checks in their order; the word that check (4) records is the presented one, since a
request that decodes is the encoding of its instruction. -/
theorem requestChecksFollowTheirOrder : Obligations.RequestChecksFollowTheirOrder := by
  intro w payload s hp
  refine ⟨presentRequest_of_reserved, presentRequest_of_illegalPayload, fun hn hl hu hbegin hstatus => ?_,
    fun hn hl _ => presentRequest_of_legal hn hl⟩
  obtain ⟨i, hd, hpres⟩ := presentRequest_of_legal hn hl
  have he : encode s.cfg i = .request w payload := decodedRequestsEncodeToTheirWord _ _ _ _ hd
  have hword : requestWord s.cfg i = w := by rw [requestWord, he]
  have hi : i ≠ .begin_ := by rintro rfl; exact hbegin (by rw [← hword]; exact opField_opWord _ _)
  have hj : i ≠ .getStatus := by rintro rfl; exact hstatus (by rw [← hword]; exact opField_opWord _ _)
  rw [hpres, exec_of_unconf (decodeRequest_isRequest hd) hi hj hp hu, hword]
  rfl

/-- Settles O6: each word is read by the rows of R82. -/
theorem sampleWordsDecode : Obligations.SampleWordsDecode := by
  unfold Obligations.SampleWordsDecode
  decide

/-! ### Outbound frames, read back -/

section
variable {c : Config}

/-- The scanner of a start marker; the markers are distinct (R10). -/
theorem scanAt_mKeyStart (s : List Byte) : scanAt c c.mKeyStart s = scanKey c s := if_pos rfl

theorem scanAt_mLineStart (hm : c.markers.Nodup) (s : List Byte) : scanAt c c.mLineStart s = scanLine c s := by
  simp only [Config.markers, List.nodup_cons, List.mem_cons, not_or] at hm
  simp [scanAt, hm]

theorem scanAt_mDbgStart (hm : c.markers.Nodup) (s : List Byte) : scanAt c c.mDbgStart s = scanDebug c s := by
  simp only [Config.markers, List.nodup_cons, List.mem_cons, not_or] at hm
  simp [scanAt, hm, eq_comm]

theorem scanAt_mPad (hm : c.markers.Nodup) (s : List Byte) : scanAt c c.mPad s = scanReady c s := by
  simp only [Config.markers, List.nodup_cons, List.mem_cons, not_or] at hm
  simp [scanAt, hm, eq_comm]

/-- R192. -/
theorem scanKey_frame (code : Byte) (rest : List Byte) :
    scanKey c (code :: keyChk c code :: c.mKeyEnd :: rest) = .item (.key code) rest := by
  simp [scanKey]

/-- R193: the length byte holds the length, which `MAX_LINE` bounds. -/
theorem scanLine_frame (hmax : c.maxLine ≤ 255) {chars : List Byte} (hlen : chars.length ≤ c.maxLine)
    (rest : List Byte) :
    scanLine c (BitVec.ofNat 8 chars.length :: (chars ++ lineChk c chars :: c.mLineEnd :: rest)) =
      .item (.line chars) rest := by
  have hbyte : (BitVec.ofNat 8 chars.length).toNat = chars.length := Nat.mod_eq_of_lt (by omega)
  simp [scanLine, hbyte, hlen]

/-- R194: the first end marker is the frame's own. -/
theorem scanDebug_frame {text : List Byte} (hlen : text.length ≤ c.maxDebugPayload) (hend : c.mDbgEnd ∉ text)
    (rest : List Byte) : scanDebug c (text ++ c.mDbgEnd :: rest) = .item (.debug text) rest := by
  have hwindow : (text ++ c.mDbgEnd :: rest).take (c.maxDebugPayload + 1) =
      text ++ c.mDbgEnd :: rest.take (c.maxDebugPayload - text.length) := by
    rw [List.take_append, List.take_of_length_le (by omega), Nat.succ_sub hlen, List.take_succ_cons]
  have htext : (text ++ c.mDbgEnd :: rest.take (c.maxDebugPayload - text.length)).takeWhile
      (fun b => b != c.mDbgEnd) = text := by
    rw [List.takeWhile_append_of_pos fun b hb => bne_iff_ne.2 (ne_of_mem_of_not_mem hb hend)]
    simp
  simp [scanDebug, hwindow, htext]

/-- R195. -/
theorem scanReady_frame (rest : List Byte) : scanReady c (c.mPad :: c.mReady :: rest) = .item .ready rest := by
  simp [scanReady]

/-- A frame the scanner takes to its end is its row. -/
theorem decodeOutbound_of_scanAt {b : Byte} {s : List Byte} {e : Event} {i : Instr} (hs : scanAt c b s = .item e [])
    (he : e.frame = some i) : decodeOutbound c (b :: s) = .ok i := by
  simp [decodeOutbound, hs, he]

theorem decodeOutbound_keyFrameBytes (code : Byte) : decodeOutbound c (keyFrameBytes c code) = .ok (.keyFrame code) :=
  decodeOutbound_of_scanAt ((scanAt_mKeyStart _).trans (scanKey_frame code [])) rfl

theorem decodeOutbound_lineFrameBytes (hm : c.markers.Nodup) (hmax : c.maxLine ≤ 255) {chars : List Byte}
    (hlen : chars.length ≤ c.maxLine) : decodeOutbound c (lineFrameBytes c chars) = .ok (.lineFrame chars) :=
  decodeOutbound_of_scanAt ((scanAt_mLineStart hm _).trans (scanLine_frame hmax hlen [])) rfl

theorem decodeOutbound_debugFrameBytes (hm : c.markers.Nodup) {text : List Byte}
    (hlen : text.length ≤ c.maxDebugPayload) (hend : c.mDbgEnd ∉ text) :
    decodeOutbound c (debugFrameBytes c text) = .ok (.debugFrame text) :=
  decodeOutbound_of_scanAt ((scanAt_mDbgStart hm _).trans (scanDebug_frame hlen hend [])) rfl

theorem decodeOutbound_readyFrameBytes (hm : c.markers.Nodup) :
    decodeOutbound c (readyFrameBytes c) = .ok .readyFrame :=
  decodeOutbound_of_scanAt ((scanAt_mPad hm _).trans (scanReady_frame [])) rfl

end

/-! ### The slots of a character, read back -/

/-- The low bits of a number, put together least significant first, are its remainder. -/
theorem foldr_testBit (n k : Nat) :
    ((List.range n).map k.testBit).foldr (fun b m => b.toNat + 2 * m) 0 = k % 2 ^ n := by
  induction n generalizing k with
  | zero => simp [Nat.mod_one]
  | succ n ih =>
    have htail : k.testBit ∘ Nat.succ = (k / 2).testBit := funext fun i => Nat.testBit_succ k i
    rw [List.range_succ_eq_map, List.map_cons, List.foldr_cons, List.map_map, htail, ih, Nat.testBit_zero,
      Nat.pow_succ', Nat.mod_mul]
    congr 1
    rcases Nat.mod_two_eq_zero_or_one k with h | h <;> simp [h]

theorem byteOfBits_getLsbD (b : Byte) : byteOfBits ((List.range 8).map b.getLsbD) = b := by
  have h : ((List.range 8).map b.getLsbD).foldr (fun b n => b.toNat + 2 * n) 0 = b.toNat % 2 ^ 8 :=
    foldr_testBit 8 b.toNat
  rw [byteOfBits, h, Nat.mod_eq_of_lt b.isLt, BitVec.ofNat_toNat, BitVec.setWidth_eq]

theorem decodeSlots_charSlots (b : Byte) : decodeSlots (charSlots b) = .ok (.serialChar b) :=
  congrArg (fun v => Except.ok (Instr.serialChar v)) (byteOfBits_getLsbD b)

/-! ### Every row -/

/-- The 13 operations (R82): the word's two fields are what the encoder put in them. -/
theorem decode_encode_request {c : Config} {i : Instr} (hmax : c.maxLine ≤ 255) (hi : i.isRequest = true)
    (hwf : i.wellFormed c = true) : decode c (encode c i) = .ok i := by
  cases i with
  | begin_ | available | read | update | getFe | getStatus | sendReady | readU8 | readU16 =>
    simp [encode, decode, decodeRequest_opWord, plainRequest]
  | write | sendKey => simp [encode, decode, decodeRequest_opWord, byteRequest]
  | sendLine chars =>
    have hlen : chars.length ≤ c.maxLine := of_decide_eq_true hwf
    have hbyte : chars.length % 256 = chars.length := Nat.mod_eq_of_lt (by omega)
    simp [encode, decode, decodeRequest_opWord, hbyte]
  | sendDebug => simp [encode, decode, decodeRequest_opWord]
  | keyFrame | lineFrame | debugFrame | readyFrame | commandFrameIn | serialChar => cases hi

/-- The 6 wire formats (R90 to R97). -/
theorem decode_encode_wire {c : Config} {i : Instr} (hm : c.markers.Nodup) (hmax : c.maxLine ≤ 255)
    (hi : i.isRequest = false) (hwf : i.wellFormed c = true) : decode c (encode c i) = .ok i := by
  cases i with
  | keyFrame code => exact decodeOutbound_keyFrameBytes code
  | lineFrame chars => exact decodeOutbound_lineFrameBytes hm hmax (of_decide_eq_true hwf)
  | debugFrame text =>
    obtain ⟨hlen, hend⟩ := of_decide_eq_true hwf
    exact decodeOutbound_debugFrameBytes hm hlen hend
  | readyFrame => exact decodeOutbound_readyFrameBytes hm
  | commandFrameIn opcode args => rfl
  | serialChar b => exact decodeSlots_charSlots b
  | begin_ | available | read | write | update | getFe | getStatus | sendKey | sendLine | sendDebug | sendReady
  | readU8 | readU16 => cases hi

/-- Settles O1: the operations by their word, the wire formats by the reader of their connection. -/
theorem encodedInstructionsDecodeToThemselves : Obligations.EncodedInstructionsDecodeToThemselves := by
  intro c i hc hwf
  obtain ⟨_, _, _, _, _, hmax, _, _, hm⟩ := hc
  cases hi : i.isRequest with
  | true => exact decode_encode_request hmax hi hwf
  | false => exact decode_encode_wire hm hmax hi hwf

/-! ### The levels of the inbound formats -/

section
variable {α β : Type} {f : α → List β} {k : Nat}

theorem getElem?_append_length_add {l r : List α} {n : Nat} (h : l.length = n) (j : Nat) :
    (l ++ r)[n + j]? = r[j]? := by
  rw [List.getElem?_append_right (by omega), h, Nat.add_sub_cancel_left]

/-- A list made of blocks of one length `k`: element `j` of block `m`. -/
theorem getElem?_flatMap_block (hf : ∀ a, (f a).length = k) (l : List α) (m : Nat) {j : Nat} (hj : j < k) :
    (l.flatMap f)[m * k + j]? = l[m]?.bind (fun a => (f a)[j]?) := by
  induction l generalizing m with
  | nil => simp
  | cons a l ih =>
    cases m with
    | zero => simp [List.getElem?_append_left, hf, hj]
    | succ m =>
      rw [List.flatMap_cons, show (m + 1) * k + j = k + (m * k + j) by ring, getElem?_append_length_add (hf a), ih,
        List.getElem?_cons_succ]

theorem length_flatMap_block (hf : ∀ a, (f a).length = k) (l : List α) : (l.flatMap f).length = l.length * k := by
  simp [List.length_flatMap, hf]

end

/-- The ten slots of R90, by their number. -/
theorem charSlots_eq (b : Byte) : charSlots b = (List.range 10).map (slotOf b) := rfl

theorem charLevels_length (c : Config) (b : Byte) : (charLevels c b).length = 10 * c.bit :=
  length_flatMap_block (fun _ => List.length_replicate) _

/-- R90: `BIT` ticks a slot. -/
theorem charLevels_getElem? (c : Config) (b : Byte) {j : Nat} (hj : j < 10 * c.bit) :
    (charLevels c b)[j]? = some (.level (Pin.ofBit (slotOf b (j / c.bit)))) := by
  have hbit : 0 < c.bit := by omega
  have hslot : j / c.bit < 10 := Nat.div_lt_of_lt_mul (by rwa [Nat.mul_comm])
  have htick : j % c.bit < c.bit := Nat.mod_lt _ hbit
  conv_lhs => rw [← Nat.div_add_mod' j c.bit]
  rw [charLevels, getElem?_flatMap_block (fun _ => List.length_replicate) _ _ htick]
  simp [charSlots_eq, hslot, htick]

/-- Settles O33: the levels of the character, then the old line. -/
theorem serialCharDrivesTenSlots : Obligations.SerialCharDrivesTenSlots := by
  intro s b
  have hlen := charLevels_length s.cfg b
  refine ⟨charLevels s.cfg b ++ s.peerLine, rfl, fun j hj => ?_, getElem?_append_length_add hlen⟩
  rw [List.getElem?_append_left (by omega), charLevels_getElem? s.cfg b hj]

/-- Settles O34: the frame is a list of blocks, one a byte, each the levels of that byte's character. -/
theorem commandFrameDrivesItsBytes : Obligations.CommandFrameDrivesItsBytes := by
  intro s opcode args
  have hblock : ∀ b, (charLevels s.cfg b).length = 10 * s.cfg.bit := charLevels_length s.cfg
  have hlen : ((opcode :: args).flatMap (charLevels s.cfg)).length = (args.length + 1) * (10 * s.cfg.bit) :=
    length_flatMap_block hblock _
  refine ⟨(opcode :: args).flatMap (charLevels s.cfg) ++ s.peerLine, rfl, fun m j b hm hj => ?_,
    getElem?_append_length_add hlen⟩
  have hget : ((opcode :: args).flatMap (charLevels s.cfg))[m * (10 * s.cfg.bit) + j]? =
      some (.level (Pin.ofBit (slotOf b (j / s.cfg.bit)))) := by
    rw [getElem?_flatMap_block hblock _ _ hj, hm, Option.bind_some, charLevels_getElem? s.cfg b hj]
  rw [List.getElem?_append_left (List.getElem?_eq_some_iff.1 hget).1, hget]

end Sys2Proof.Machine
end

section
/-! PROOFS. The operations of the link (spec 40_link.md). An operation accepted at this tick is evaluated like one held
in stage NEW (R110, R111), and the five sends are the send path on the bytes of `sentBytes`; what a deferred send stores
is said once, of `Ring.pushAll`. A tick with a free port and a silent client is its phase action, which makes a session
with a silent peer a count of LISTEN ticks down to the timeout. -/

namespace Sys2Proof.Machine

/-! ### Result words (30_encoding.md R87) -/

/-- `zext_32` of a number that 32 bits hold. -/
theorem natResult_toNat {n : Nat} (h : n < 2 ^ 32) : (natResult n).toNat = n := by
  rw [natResult, if_pos h, BitVec.toNat_ofNat, Nat.mod_eq_of_lt h]

/-- The status word by its bits: those of `statusBits`, and 0 above them (R48). -/
theorem statusWord_getLsbD (s : State) (k : Nat) : (statusWord s).getLsbD k = (statusBits s).getD k false := by
  rw [statusWord, BitVec.getLsbD_setWidth, BitVec.getLsbD_ofBoolListLE, Bool.and_eq_right_iff_imp,
    decide_eq_true_iff]
  intro hset
  by_contra hk
  rw [List.getD_eq_default _ _ (show (statusBits s).length ≤ k by simp [statusBits]; omega)] at hset
  cases hset

/-! ### Operations that complete at once or hold -/

/-- An operation in progress is evaluated in its stage (R110). -/
theorem portOperation_of_inProgress {i : Instr} {frame : List Byte} {needsBegin : Bool}
    {body : PortOp → State → Except Fault State} {s : State} {p : PortOp} (hp : s.port = some p) :
    portOperation i frame needsBegin body s = settle (body p s) := by
  simp only [portOperation, hp]

/-- Settles O19: BEGIN in stage NEW, by the phase at the start of the tick. -/
theorem beginConfiguresThePins : Obligations.BeginConfiguresThePins := by
  intro s hp
  rw [exec, execBegin, portOperation_new hp (by simp)]
  refine ⟨fun hu => ?_, fun hi => ?_, fun hu hi => ?_⟩
  · rw [if_neg (fun h => h.1 hu), if_pos hu]
    rfl
  · rw [if_neg (fun h => h.2 hi), if_neg (by simp [hi])]
    rfl
  · rw [if_pos ⟨hu, hi⟩]
    rfl

/-- Settles O20: the result word of the count. -/
theorem availableReturnsTheCount : Obligations.AvailableReturnsTheCount := by
  intro s hp hu
  refine ⟨natResult (s.rx.count s.cfg.cap), ?_, natResult_toNat⟩
  rw [exec, execAvailable, portOperation_new (.inl hp) (fun _ => hu)]
  rfl

/-- Settles O21: the two cases of a pop of a buffer in range. -/
theorem readReturnsTheOldestByteOrTheSentinel : Obligations.ReadReturnsTheOldestByteOrTheSentinel := by
  intro s hp hu hrx
  rw [exec, execRead, portOperation_new (.inl hp) (fun _ => hu), Ring.pop_of_ok hrx]
  by_cases he : s.rx.head = s.rx.tail
  · rw [if_pos he, if_pos he]
    rfl
  · rw [if_neg he, if_neg he]
    rfl

/-- Settles O25: UPDATE in stage NEW, in IDLE and in the other configured phases. -/
theorem updateOpensAReceiveWindow : Obligations.UpdateOpensAReceiveWindow := by
  intro s hp
  refine ⟨fun hi => ?_, fun hu hi => ?_⟩
  · rw [exec, execUpdate, portOperation_new hp (fun _ => by simp [hi]), if_neg (not_not.2 hi)]
    rfl
  · rw [exec, execUpdate, portOperation_new hp (fun _ => hu), if_pos hi]
    rfl

/-- Settles O26: `FE_WIDTH` is at most 31 (R10), so the result word holds the counter. -/
theorem getFeReturnsTheCounter : Obligations.GetFeReturnsTheCounter := by
  intro s hp hu hc hfe
  obtain ⟨_, _, _, _, _, _, _, hwidth, _⟩ := hc
  have hfit : s.fe < 2 ^ 32 := hfe.trans_le (Nat.pow_le_pow_right two_pos (by omega))
  refine ⟨natResult s.fe, ?_, natResult_toNat hfit⟩
  rw [exec, execGetFe, portOperation_new (.inl hp) (fun _ => hu)]
  rfl

/-- Settles O27: the bits of the status word, one by one. -/
theorem getStatusReturnsTheStatusBits : Obligations.GetStatusReturnsTheStatusBits := by
  intro s hp
  have heval : exec .getStatus s = .next { s with port := none, result := some (statusWord s) } := by
    rw [exec, execGetStatus, portOperation_new (.inl hp) (by simp)]
    rfl
  refine ⟨statusWord s, heval, ?_⟩
  simp only [statusWord_getLsbD]
  exact ⟨rfl, decide_eq_true_iff, decide_eq_true_iff, decide_eq_true_iff, decide_eq_true_iff, decide_eq_true_iff,
    decide_eq_true_iff, fun _ hk => List.getD_eq_default _ _ hk⟩

/-! ### The send path -/

section
variable {s : State} {i : Instr} {bytes : List Byte}

/-- The five sends are the send path on their bytes (R117, R183 to R186). -/
theorem exec_of_sentBytes (h : sentBytes s.cfg i = some bytes) :
    exec i s = portOperation i bytes true sendPath s := by
  cases i with
  | write | sendKey | sendLine | sendReady => cases h; rfl
  | sendDebug text =>
    cases h
    rw [exec, execSendDebug, debugFramesBytes, ← List.flatMap_def]
    rfl
  | begin_ | available | read | update | getFe | getStatus | readU8 | readU16 | keyFrame | lineFrame | debugFrame
  | readyFrame | commandFrameIn | serialChar => cases h

/-- A send in stage NEW, accepted at this tick or held before. -/
theorem exec_send_new (h : sentBytes s.cfg i = some bytes) (hp : s.port = none ∨ s.port = some ⟨i, bytes, .new⟩)
    (hu : s.atStart.phase ≠ .unconf) :
    exec i s = settle (sendPath ⟨i, bytes, .new⟩ { s with port := some ⟨i, bytes, .new⟩ }) := by
  rw [exec_of_sentBytes h, portOperation_new hp fun _ => hu]

end

/-- Settles O23: stage NEW with `receiving = 0`. -/
theorem sendsStartFromIdleOrHold : Obligations.SendsStartFromIdleOrHold := by
  intro s i bytes hb hp hu hrec
  rw [exec_send_new hb hp hu]
  by_cases hi : s.atStart.phase = .idle
  · simp only [sendPath, hrec, Bool.false_eq_true, if_false, if_pos hi]
    rfl
  · simp only [sendPath, hrec, Bool.false_eq_true, if_false, if_neg hi]
    rfl

/-- Settles O24: stage SENDING. -/
theorem sendsCompleteWhenAllBytesAreSent : Obligations.SendsCompleteWhenAllBytesAreSent := by
  intro s i bytes hb hp
  obtain ⟨sent, hsent⟩ := Option.isSome_iff_exists.1 hb
  rw [exec_of_sentBytes hsent, portOperation_of_inProgress hp]
  by_cases hend : s.atStart.phase = .opseq ∧ s.atStart.pend = []
  · simp only [sendPath, if_pos hend]
    rfl
  · simp only [sendPath, if_neg hend]
    rfl

/-! ### What a run of pushes stores -/

/-- `r'` is `r` with the first `n` of the bytes stored, in order, from `head` on. -/
structure Ring.Stores (cap n : Nat) (bytes : List Byte) (r r' : Ring) : Prop where
  tail : r'.tail = r.tail
  head : r'.head = (r.head + n) % cap
  stored : ∀ j, j < n → bytes[j]? = some (r'.slots.read ((r.head + j) % cap))
  kept : ∀ a, (∀ j, j < n → a ≠ (r.head + j) % cap) → r'.slots.read a = r.slots.read a

section
variable {cap n : Nat} {b : Buffer} {v : Byte} {bytes : List Byte} {r r' : Ring}

theorem Ring.stores_nothing (hh : r.head < cap) : r.Stores cap 0 bytes r :=
  ⟨rfl, (Nat.mod_eq_of_lt hh).symm, fun _ hj => absurd hj (Nat.not_lt_zero _), fun _ _ => rfl⟩

/-- A byte stored at `head`, then the others from the next slot on: fewer than `CAP`, they leave the slot alone. -/
theorem Ring.stores_cons (h : r.Ok cap) (hn : n + 1 < cap)
    (hrest : Ring.Stores cap n bytes { r with slots := r.slots.write r.head v, head := (r.head + 1) % cap } r') :
    r.Stores cap (n + 1) (v :: bytes) r' := by
  obtain ⟨hh, -, hwf, -⟩ := h
  obtain ⟨htail, hhead, hstored, hkept⟩ := hrest
  have hshift : ∀ j, ((r.head + 1) % cap + j) % cap = (r.head + (j + 1)) % cap := fun j => by
    rw [Nat.mod_add_mod, Nat.add_assoc, Nat.add_comm 1 j]
  simp only [hshift, Memory.read_write _ _ _ hwf] at hhead hstored hkept
  have hother : ∀ j, j < n → r.head ≠ (r.head + (j + 1)) % cap := fun j hj => by
    rw [indexAdd_eq hh (by omega)]
    split_ifs <;> omega
  refine ⟨htail, hhead, fun j hj => ?_, fun a ha => ?_⟩
  · cases j with
    | zero => rw [Nat.add_zero, Nat.mod_eq_of_lt hh, hkept _ hother, if_pos rfl, List.getElem?_cons_zero]
    | succ j => rw [List.getElem?_cons_succ, hstored j (by omega)]
  · have hne : a ≠ r.head := by simpa [Nat.mod_eq_of_lt hh] using ha 0 (by omega)
    rw [hkept a fun j hj => ha (j + 1) (by omega), if_neg hne]

/-- `Enqueue` stores as many bytes as there are free slots but one (R58, R122). -/
theorem Ring.pushAll_stores (bytes : List Byte) :
    ∀ {r r' : Ring}, r.Ok cap → r.pushAll cap b bytes = .ok r' →
      r.Stores cap (min bytes.length (cap - 1 - r.count cap)) bytes r' := by
  induction bytes with
  | nil =>
    intro r r' h hp
    cases hp
    simpa using Ring.stores_nothing h.1
  | cons v vs ih =>
    intro r r' h hp
    obtain ⟨hh, ht, -⟩ := id h
    have hlt := Ring.count_lt hh ht
    have hpush := Ring.push_of_ok (b := b) (v := v) h
    have hok := Ring.push_keeps_ok h hpush
    rw [Ring.pushAll, hpush] at hp
    by_cases hfull : (r.head + 1) % cap = r.tail
    · have hroom : cap - 1 - r.count cap = 0 := by rw [(Ring.full_iff_count hh ht).1 hfull, Nat.sub_self]
      rw [if_pos hfull] at hp
      have hrest := ih h hp
      rw [hroom, Nat.min_zero] at hrest ⊢
      exact { hrest with stored := fun _ hj => absurd hj (Nat.not_lt_zero _) }
    · have hcount : Ring.count cap { r with slots := r.slots.write r.head v, head := (r.head + 1) % cap } =
          r.count cap + 1 := Ring.count_of_head_moved hh ht hfull rfl rfl
      have hroom := mt (Ring.full_iff_count hh ht).2 hfull
      rw [if_neg hfull] at hp hok
      have hrest := ih hok hp
      rw [hcount] at hrest
      have hmin : min (v :: vs).length (cap - 1 - r.count cap) =
          min vs.length (cap - 1 - (r.count cap + 1)) + 1 := by
        rw [List.length_cons]
        omega
      rw [hmin]
      exact Ring.stores_cons h (by omega) hrest

end

/-- Settles O22: stage NEW with `receiving = 1`. -/
theorem sendsDeferWhileReceiving : Obligations.SendsDeferWhileReceiving := by
  intro s i bytes hb _ hp hu hrec htx
  obtain ⟨r, hpush, hok, -⟩ := Ring.pushAll_ok (b := .tx) bytes htx
  obtain ⟨htail, hhead, hstored, hkept⟩ := Ring.pushAll_stores bytes htx hpush
  refine ⟨r, ?_, hok, htail, hhead, hstored, hkept⟩
  rw [exec_send_new hb hp hu]
  simp only [sendPath, hrec, if_true, hpush]
  rfl

/-! ### The step -/

section
variable {s s1 s2 u : State}

/-- A tick of a block without fault: the port's turn on the state the phase action leaves, then the end of the tick
(R112, R140). -/
theorem step_of_turns (hc : s.cfg.WellFormed) (hdec : decoderTurn s = .next s1) (hdrv : driverTurn s1 = .next s2)
    (hf : s2.fault = none) (hu : phaseAction s2.beginTick = .ok u) :
    step s = andThen (portTurn u) (fun v => .next (s2.endTick v)) := by
  rw [step, if_pos hc, hdec, andThen_next, hdrv, andThen_next, blockTurn, if_neg (not_not.2 hf), hu]

theorem portTurn_of_inProgress {p : PortOp} (hp : u.port = some p) : portTurn u = exec p.instr u := by
  simp only [portTurn, hp]

theorem portTurn_of_silent (hp : u.port = none) (hcl : u.client = []) : portTurn u = .next u := by
  simp only [portTurn, hp, hcl]

theorem portTurn_of_due {nb : Nat} {w : Word16} {payload : List Byte} {rest : List ClientItem} (hp : u.port = none)
    (hcl : u.client = .request nb w payload :: rest) (hnow : nb ≤ u.now) :
    portTurn u = presentRequest w payload { u with client := rest } := by
  simp only [portTurn, hp, hcl, if_pos hnow]

theorem presentRequest_of_decode {w : Word16} {payload : List Byte} {i : Instr}
    (hd : decode s.cfg (.request w payload) = .ok i) (hwf : i.wellFormed s.cfg = true) :
    presentRequest w payload s = exec i s := by
  simp only [presentRequest, hd, hwf, if_true]

end

/-- Settles O42: the port's turn is the evaluation of the request. -/
theorem stepRunsTheDecodedRequest : Obligations.StepRunsTheDecodedRequest := by
  intro s s1 s2 u i nb w payload rest hc hdec hdrv hf hu hp hcl hnow hd hwf
  rw [step_of_turns hc hdec hdrv hf hu, portTurn_of_due hp hcl hnow]
  exact congrArg (andThen · _) (presentRequest_of_decode (s := { u with client := rest }) hd hwf)

/-- Settles O43: the port's turn is the evaluation of the operation in progress, or nothing. -/
theorem stepRunsTheOperationInProgress : Obligations.StepRunsTheOperationInProgress := by
  intro s s1 s2 u hc hdec hdrv hf hu
  refine ⟨fun p hp => ?_, fun hp hcl => ?_⟩
  · rw [step_of_turns hc hdec hdrv hf hu, portTurn_of_inProgress hp]
  · rw [step_of_turns hc hdec hdrv hf hu, portTurn_of_silent hp hcl, andThen_next]

/-! ### Runs -/

section
variable {M : Host.Core} {s t : M.State}

theorem run_succ_of_next (n : Nat) (h : M.step s = .next t) : M.run (n + 1) s = M.run n t := by
  simp only [Host.Core.run, h]

/-- A run goes on from the state it has reached. -/
theorem run_add_of_next (m n : Nat) : ∀ {s : M.State}, M.run m s = .next t → M.run (m + n) s = M.run n t := by
  induction m with
  | zero =>
    intro s h
    cases h
    rw [Nat.zero_add]
  | succ m ih =>
    intro s h
    cases hs : M.step s with
    | next u =>
      rw [run_succ_of_next m hs] at h
      rw [Nat.succ_add, run_succ_of_next _ hs, ih h]
    | fault r | refused r =>
      simp only [Host.Core.run, hs] at h
      cases h

end

/-! ### A session with a silent peer -/

section
variable {s : State}

theorem driverTurn_of_level {p : Pin} {line : List LineItem} (h : s.peerLine = .level p :: line) :
    driverTurn s = .next s := by
  simp only [driverTurn, h]

/-- With a free port and a silent client a tick is its phase action, on a state in which only the peer's lists have
changed; a level that is the peer's turn stays. -/
theorem step_of_quiet (hc : s.cfg.WellFormed) (hf : s.fault = none) (hp : s.port = none) (hcl : s.client = []) :
    ∃ (hostIn : List Byte) (events : List Event) (line : List LineItem) (b : State),
      b = { s with hostIn := hostIn, hostEvents := events, peerLine := line } ∧
      (∀ p rest, s.peerLine = .level p :: rest → line = s.peerLine) ∧
      ∀ u, phaseAction b.beginTick = .ok u → step s = .next (b.endTick u) := by
  obtain ⟨hostIn, events, line, hdec, hdrv, -⟩ := step_eq hc
  refine ⟨hostIn, events, line, _, rfl, fun p rest hl => ?_, fun u hu => ?_⟩
  · rw [driverTurn_of_level (by exact hl)] at hdrv
    injection hdrv with hdrv
    exact (congrArg State.peerLine hdrv).symm
  · obtain ⟨-, hport, -, -, -, -, hclient, -⟩ := (phaseAction_move hu).frame
    exact (stepRunsTheOperationInProgress s _ _ u hc hdec hdrv hf hu).2 (hport.trans hp) (hclient.trans hcl)

/-- R143. -/
theorem phaseAction_of_timeout (hp : s.phase = .listen) (h : s.windowStart + s.cfg.timeoutTicks ≤ s.now) :
    phaseAction s = .ok { s with readyOut := .high, receiving := false, phase := .flush } := by
  simp only [phaseAction, hp, actListen, if_pos h]

/-- R145 on a high line. -/
theorem phaseAction_of_listen_high (hp : s.phase = .listen) (h : s.now < s.windowStart + s.cfg.timeoutTicks)
    (hs : s.sample = true) : phaseAction s = .ok { s with prevRx := true } := by
  simp [phaseAction, hp, actListen, hs, Nat.not_le.2 h]

/-- R155 with nothing deferred. -/
theorem phaseAction_of_flushed (hp : s.phase = .flush) (h : s.tx.head = s.tx.tail) :
    phaseAction s = .ok { s with phase := .idle } := by
  simp only [phaseAction, hp, actFlush, Ring.pop, if_pos h]

/-- The tick of FLUSH with nothing deferred. -/
theorem step_of_flushed (hc : s.cfg.WellFormed) (hf : s.fault = none) (hp : s.port = none) (hcl : s.client = [])
    (hph : s.phase = .flush) (he : s.tx.head = s.tx.tail) :
    ∃ t, step s = .next t ∧ t.readyOut = s.readyOut ∧ t.phase = .idle := by
  obtain ⟨_, _, _, b, rfl, -, hstep⟩ := step_of_quiet hc hf hp hcl
  exact ⟨_, hstep _ (phaseAction_of_flushed hph he), rfl, rfl⟩

end

/-- A session with nothing deferred, a free port and a silent client, and a peer that holds the line high for the `left`
ticks before the one that finds the timeout. -/
structure State.SilentSession (left : Nat) (s : State) : Prop where
  cfg : s.cfg.WellFormed
  fault : s.fault = none
  port : s.port = none
  client : s.client = []
  phase : s.phase = .listen
  ready : s.readyOut = .low
  deferred : s.tx.head = s.tx.tail
  time : s.now + left = s.windowStart + s.cfg.timeoutTicks
  line : ∀ j, j < left → s.peerLine[j]? = some (.level .high)

section
variable {left : Nat} {s : State}

/-- A LISTEN tick before the timeout. -/
theorem State.SilentSession.tick (h : s.SilentSession (left + 1)) :
    ∃ t, step s = .next t ∧ t.SilentSession left := by
  obtain ⟨cfg, fault, port, client, phase, ready, deferred, time, line⟩ := h
  obtain ⟨rest, hfront⟩ := List.head?_eq_some_iff.1 (List.head?_eq_getElem?.trans (line 0 left.succ_pos))
  obtain ⟨_, _, driven, b, rfl, hkeep, hstep⟩ := step_of_quiet cfg fault port client
  obtain rfl := hkeep _ _ hfront
  have hhigh := (sampleFollowsTheLineAndThePullUp _ _ _ hfront).2.1 rfl
  have hbefore : s.now < s.windowStart + s.cfg.timeoutTicks := by omega
  refine ⟨_, hstep _ (phaseAction_of_listen_high phase hbefore hhigh),
    cfg, fault, port, client, phase, ready, deferred, ?_, fun j hj => ?_⟩
  · exact (Nat.succ_add_eq_add_succ s.now left).trans time
  · exact List.getElem?_tail.trans (line (j + 1) (Nat.succ_lt_succ hj))

/-- The ticks before the timeout. -/
theorem State.SilentSession.run (n : Nat) :
    ∀ {s : State}, s.SilentSession (left + n) → ∃ t, Sys2Proof.core.run n s = .next t ∧ t.SilentSession left := by
  induction n with
  | zero => exact fun {s} h => ⟨s, rfl, h⟩
  | succ n ih =>
    intro s h
    obtain ⟨u, hstep, hu⟩ := State.SilentSession.tick h
    obtain ⟨t, hrun, ht⟩ := ih hu
    exact ⟨t, (run_succ_of_next n hstep).trans hrun, ht⟩

/-- The tick that finds the timeout, and the tick after it. -/
theorem State.SilentSession.timeout (h : s.SilentSession 0) :
    ∃ t, step s = .next t ∧ (t.readyOut = .high ∧ t.phase = .flush) ∧
      ∃ u, step t = .next u ∧ u.readyOut = .high ∧ u.phase = .idle := by
  obtain ⟨_, _, _, b, rfl, -, hstep⟩ := step_of_quiet h.cfg h.fault h.port h.client
  exact ⟨_, hstep _ (phaseAction_of_timeout h.phase h.time.ge), ⟨rfl, rfl⟩,
    step_of_flushed h.cfg h.fault h.port h.client rfl h.deferred⟩

end

/-- Settles O59: the LISTEN ticks, the tick that finds the timeout, and the tick that finds nothing to flush. -/
theorem silentSessionsEndAtTheTimeout : Obligations.SilentSessionsEndAtTheTimeout := by
  intro s hc _ hpins hf hcl hp hph htx hnow hline
  obtain ⟨left, hleft⟩ : ∃ left, s.cfg.timeoutTicks = left + 1 := by
    obtain ⟨_, _, hpos, _⟩ := hc
    exact Nat.exists_eq_succ_of_ne_zero (by omega)
  obtain ⟨_, _, _, hready, _⟩ := (pinsFollowPhase_receives (.inl hph)).1 hpins
  have hsession : s.SilentSession left :=
    ⟨hc, hf, hp, hcl, hph, hready, htx, by omega, fun j hj => hline j (by omega)⟩
  obtain ⟨t, hrun, ht⟩ := State.SilentSession.run (left := 0) left (by rwa [Nat.zero_add])
  obtain ⟨u, hu, hflush, v, hv, hidle⟩ := ht.timeout
  rw [hleft]
  refine ⟨fun n hn => ?_, ⟨u, ?_, hflush⟩, ⟨v, ?_, hidle⟩⟩
  · have hsplit : s.SilentSession (left - n + n) := by rwa [Nat.sub_add_cancel (by omega)]
    obtain ⟨w, hw, hws⟩ := hsplit.run n
    exact ⟨w, hw, hws.ready, hws.phase⟩
  · exact (run_add_of_next left 1 hrun).trans (run_succ_of_next 0 hu)
  · exact (run_add_of_next left 2 hrun).trans ((run_succ_of_next 1 hu).trans (run_succ_of_next 0 hv))

end Sys2Proof.Machine
end

section
/-! PROOFS. The link sequencer (spec 41_link_sequencer.md). While the counter is below the period of its phase a phase
takes no action; what the action does once the period is over is one lemma a phase. The timing of a transmitted and of a
received character follows: an invariant says how far the character is at a tick, and each of its ten slots is a run of
ticks without action and one that acts. -/

namespace Sys2Proof.Machine

/-! ### The action of each phase that waits -/

section
variable {s : State}

theorem phaseAction_of_rxHalf (hp : s.phase = .rxHalf) : phaseAction s = .ok (actRxHalf s) := by
  simp only [phaseAction, hp]

theorem phaseAction_of_rxBit (hp : s.phase = .rxBit) : phaseAction s = .ok (actRxBit s) := by
  simp only [phaseAction, hp]

theorem phaseAction_of_rxStop (hp : s.phase = .rxStop) : phaseAction s = actRxStop s := by
  simp only [phaseAction, hp]

theorem phaseAction_of_tx (hp : s.phase = .tx) : phaseAction s = .ok (actTx s) := by
  simp only [phaseAction, hp]

end

/-! ### Waiting for the counter (R35) -/

/-- How long the counter runs in a phase before its action is taken: half a bit period in RX_HALF, one in RX_BIT,
RX_STOP and TX (R146, R149, R150, R160); the other phases do not wait. -/
def Phase.period (c : Config) : Phase → Nat
  | .rxHalf => c.half
  | .rxBit | .rxStop | .tx => c.bit
  | .unconf | .idle | .listen | .flush | .opseq => 0

theorem Phase.period_le_bit (c : Config) (p : Phase) : p.period c ≤ c.bit := by
  cases p with
  | rxHalf => exact Nat.div_le_self _ _
  | rxBit | rxStop | tx => exact le_rfl
  | unconf | idle | listen | flush | opseq => exact Nat.zero_le _

section
variable {s : State}

theorem State.waitDone_of_lt {n : Nat} (h : s.counter < n) : s.waitDone n = false :=
  decide_eq_false (Nat.not_le.2 h)

theorem State.waitDone_of_le {n : Nat} (h : n ≤ s.counter) : s.waitDone n = true :=
  decide_eq_true h

/-- No action before the period of the phase is over. -/
theorem phaseAction_of_waiting (h : s.counter < s.phase.period s.cfg) : phaseAction s = .ok s := by
  have hwait := State.waitDone_of_lt h
  cases hp : s.phase with
  | rxHalf | rxBit | rxStop | tx =>
    simp only [hp, Phase.period] at hwait
    simp only [phaseAction, hp, actRxHalf, actRxBit, actRxStop, actTx, hwait, if_true]
  | unconf | idle | listen | flush | opseq =>
    rw [hp] at h
    exact absurd h (Nat.not_lt_zero _)

/-! ### The phase actions -/

/-- Settles O35. -/
theorem idlePhasesTakeNoAction : Obligations.IdlePhasesTakeNoAction := by
  intro s hp
  rcases hp with hp | hp <;> simp only [phaseAction, hp]

/-- Settles O36: the timeout, the edge, and any other sample. -/
theorem listenTestsTheTimeoutThenTheEdge : Obligations.ListenTestsTheTimeoutThenTheEdge := by
  intro s hp
  simp only [phaseAction, hp, actListen]
  rfl

/-- Settles O37: the wait, the false start and the start bit. -/
theorem halfBitRecheckRejectsFalseStarts : Obligations.HalfBitRecheckRejectsFalseStarts := by
  intro s hp
  by_cases hwait : s.counter < s.cfg.half
  · rw [if_pos hwait]
    exact phaseAction_of_waiting (by rwa [hp])
  · rw [if_neg hwait]
    simp only [phaseAction_of_rxHalf hp, actRxHalf, State.waitDone_of_le (Nat.not_lt.1 hwait),
      Bool.true_eq_false, if_false]
    rfl

/-- The bits of `setBit`. -/
theorem setBit_getLsbD (v : Byte) {k : Nat} (b : Bool) {j : Nat} (hk : k < 8) (hj : j < 8) :
    (setBit v k b).getLsbD j = if j = k then b else v.getLsbD j := by
  rcases Nat.lt_trichotomy j k with h | h | h
  · simp [setBit, hj, h, h.ne]
  · subst h
    simp [setBit, hj]
  · simp [setBit, hj, h.ne', Nat.not_lt.2 h.le, Nat.sub_ne_zero_of_lt h]

/-- Settles O38: the bit goes into `rx_acc` at `rx_k`, and `rx_k` tells whether it is the eighth. -/
theorem dataBitsAreAccumulatedInOrder : Obligations.DataBitsAreAccumulatedInOrder := by
  intro s hp
  refine ⟨fun hwait => phaseAction_of_waiting (by rwa [hp]), fun hdone => ?_⟩
  have hbits : ∀ j, j < 8 → (setBit s.rxAcc s.rxK s.sample).getLsbD j =
      if j = s.rxK.val then s.sample else s.rxAcc.getLsbD j := fun j hj => setBit_getLsbD _ _ s.rxK.isLt hj
  by_cases hk : s.rxK.val < 7
  · refine ⟨_, ⟨s.rxK.val + 1, by omega⟩, s.phase, ?_, hbits, ?_⟩
    · simp only [phaseAction_of_rxBit hp, actRxBit, State.waitDone_of_le hdone, Bool.true_eq_false, if_false,
        dif_pos hk]
      rfl
    · rw [if_neg hk.ne]
      exact ⟨rfl, hp⟩
  · refine ⟨_, s.rxK, .rxStop, ?_, hbits, ?_⟩
    · simp only [phaseAction_of_rxBit hp, actRxBit, State.waitDone_of_le hdone, Bool.true_eq_false, if_false,
        dif_neg hk]
      rfl
    · rw [if_pos (by omega)]
      exact ⟨rfl, rfl⟩

/-- Settles O39: the push onto a buffer in range. -/
theorem stopBitPushesTheByte : Obligations.StopBitPushesTheByte := by
  intro s hp hrx
  refine ⟨fun hwait => phaseAction_of_waiting (by rwa [hp]), fun hdone => ?_⟩
  simp only [phaseAction_of_rxStop hp, actRxStop, State.waitDone_of_le hdone, Bool.true_eq_false, if_false,
    Ring.push_of_ok hrx]
  cases s.sample <;> rfl

/-- Settles O40: FLUSH pops a buffer in range, OPSEQ takes the front of `pend`. -/
theorem flushAndOpseqStartTheNextByte : Obligations.FlushAndOpseqStartTheNextByte := by
  intro s
  refine ⟨fun hp htx => ?_, fun hp hpend => ?_, fun b rest hp hpend => ?_⟩
  · by_cases he : s.tx.head = s.tx.tail
    · rw [if_pos he]
      exact phaseAction_of_flushed hp he
    · simp only [phaseAction, hp, actFlush, Ring.pop_of_ok htx, if_neg he]
      rfl
  · simp only [phaseAction, hp, actOpseq_of_nil hpend]
  · simp only [phaseAction, hp, actOpseq, hpend]
    rfl

/-- Settles O41: the wait, the slots 1 to 9, and the end of the stop slot. -/
theorem txDrivesTheSlotsInTurn : Obligations.TxDrivesTheSlotsInTurn := by
  intro s hp
  refine ⟨fun hwait => phaseAction_of_waiting (by rwa [hp]), fun hdone hlt => ?_, fun hdone hlast => ?_⟩
  · refine ⟨⟨s.txSlot.val + 1, by omega⟩, rfl, ?_⟩
    simp only [phaseAction_of_tx hp, actTx, State.waitDone_of_le hdone, Bool.true_eq_false, if_false, dif_pos hlt]
    rfl
  · have hret : s.txRet.phase = if s.txRet = .flush then .flush else .opseq := by cases s.txRet <;> rfl
    simp only [phaseAction_of_tx hp, actTx, State.waitDone_of_le hdone, Bool.true_eq_false, if_false,
      dif_neg (show ¬ s.txSlot.val < 9 by omega), ← hret]
    rfl

/-- Settles O46: the peer's turns change the peer's lists, and the faulted tick `now`, the strobe and the line. -/
theorem faultedBlockOnlyLetsNowAdvance : Obligations.FaultedBlockOnlyLetsNowAdvance := by
  intro s hc hf
  obtain ⟨hostIn, events, line, -, -, hstep⟩ := step_eq hc
  refine ⟨line.tail, hostIn, events, ?_⟩
  rw [hstep, blockTurn, if_pos (by exact hf)]
  rfl

end

/-! ### Ticks of an active phase -/

/-- Outside UNCONF and IDLE an evaluation of an operation touches only the buffers, the port and the result (R110). -/
theorem PortMove.of_active {p : PortOp} {s t : State} (h : PortMove p s t) (hu : s.atStart.phase ≠ .unconf)
    (hi : s.atStart.phase ≠ .idle) :
    ∃ (rx tx : Ring) (port : Option PortOp) (result : Option Word32),
      t = { s with rx := rx, tx := tx, port := port, result := result } := by
  cases h with
  | hold => exact ⟨s.rx, s.tx, s.port, s.result, rfl⟩
  | answer r => exact ⟨s.rx, s.tx, none, some r, rfl⟩
  | popAnswer v q r => exact ⟨q, s.tx, none, some r, rfl⟩
  | defer q => exact ⟨s.rx, q, none, some 0, rfl⟩
  | sent => exact ⟨s.rx, s.tx, none, some 0, rfl⟩
  | configure _ h => exact absurd h hu
  | reconfigure _ h => exact absurd h hi
  | popHigh _ _ _ _ h => exact absurd h hi
  | session _ h => exact absurd h hi
  | window _ h => exact absurd h hi
  | startSending _ _ _ h => exact absurd h hi

/-- The invariants of every run (O50, O51, O52). -/
structure State.RunInvariants (s : State) : Prop where
  buffers : s.BuffersInRange
  pins : s.PinsFollowPhase
  port : s.PortFollowsPhase

theorem State.RunInvariants.step {s t : State} (h : s.RunInvariants) (hstep : step s = .next t) : t.RunInvariants where
  buffers := stepKeepsBuffersInRange s t (step_cases hstep).1 h.buffers hstep
  pins := stepKeepsPinsFollowingThePhase s t h.pins hstep
  port := stepKeepsThePortFollowingThePhase s t h.port hstep

/-- A tick of an active phase in which the client presents nothing: the phase action on a state in which only the peer's
lists have changed, then whatever the operation on the port makes of the buffers, the port and the result. -/
theorem step_of_active {s : State} (hc : s.cfg.WellFormed) (hs : s.RunInvariants) (hf : s.fault = none)
    (hcl : s.client = []) (hunc : s.phase ≠ .unconf) (hidle : s.phase ≠ .idle) :
    ∃ (hostIn : List Byte) (events : List Event) (line : List LineItem) (b : State),
      b = State.beginTick { s with hostIn := hostIn, hostEvents := events, peerLine := line } ∧
      ∀ u, phaseAction b = .ok u →
        ∃ (rx tx : Ring) (port : Option PortOp) (result : Option Word32),
          step s = .next (b.endTick { u with rx := rx, tx := tx, port := port, result := result }) := by
  obtain ⟨hostIn, events, line, hdec, hdrv, -⟩ := step_eq hc
  refine ⟨hostIn, events, line, _, rfl, fun u hu => ?_⟩
  obtain ⟨hbusy, hfree⟩ := stepRunsTheOperationInProgress s _ _ u hc hdec hdrv hf hu
  have hm := phaseAction_move hu
  obtain ⟨hstart, hport, -, -, -, -, hclient, -⟩ := hm.frame
  cases hp : u.port with
  | none => exact ⟨u.rx, u.tx, u.port, u.result, hfree hp (hclient.trans hcl)⟩
  | some p =>
    obtain ⟨-, -, -, hrequest⟩ := hs.port
    obtain ⟨hreq, -⟩ := hrequest p (hport.symm.trans hp)
    obtain ⟨hrx, htx, -⟩ := hm.keeps_buffersInRange hs.buffers
    obtain ⟨v, hv⟩ := exec_completes hrx htx p.instr
    have hmove : PortMove p u v := portTurn_of_busy hp hreq ((portTurn_of_inProgress hp).trans hv)
    have hat : u.atStart.phase = s.phase := congrArg TickStart.phase hstart
    obtain ⟨rx, tx, port, result, rfl⟩ := hmove.of_active (hat ▸ hunc) (hat ▸ hidle)
    exact ⟨rx, tx, port, result, (hbusy p hp).trans (by rw [hv]; rfl)⟩

theorem Config.bit_pos {c : Config} (hc : c.WellFormed) : 0 < c.bit :=
  Nat.lt_of_lt_of_le two_pos hc.1

/-- Up to a bit period the counter does not wrap (R10, R33). -/
theorem State.endTick_counter_of_le_bit {start s : State} (hrun : start.cntRun = true) (hc : s.cfg.WellFormed)
    (h : s.counter + 1 ≤ s.cfg.bit) : (start.endTick s).counter = s.counter + 1 := by
  obtain ⟨_, hwidth, _⟩ := hc
  have hpos := Nat.two_pow_pos s.cfg.counterWidth
  rw [State.endTick_counter_of_running hrun, Nat.mod_eq_of_lt (by omega)]

/-! ### A transmitted character -/

/-- Slot `j` of the character that `start` has begun to transmit has stood on the TX pin for `k` ticks. -/
structure State.Transmitting (s start : State) (j k : Nat) : Prop where
  cfg : s.cfg = start.cfg
  invariants : s.RunInvariants
  fault : s.fault = none
  client : s.client = []
  phase : s.phase = .tx
  slot : s.txSlot.val = j
  counter : s.counter = k + 1
  byte : s.txByte = start.txByte
  ret : s.txRet = start.txRet
  ie : s.ie = start.ie
  savedIe : s.savedIe = start.savedIe

section
variable {start s : State} {j k : Nat}

theorem State.Transmitting.txOut (h : s.Transmitting start j k) : s.txOut = Pin.ofBit (slotOf start.txByte j) := by
  obtain ⟨-, -, -, -, hout⟩ := (pinsFollowPhase_tx h.phase).1 h.invariants.pins
  rw [hout, h.byte, h.slot]

theorem State.Transmitting.cntRun (h : s.Transmitting start j k) : s.cntRun = true := by
  obtain ⟨-, -, hrun, -⟩ := (pinsFollowPhase_tx h.phase).1 h.invariants.pins
  exact hrun

/-- A tick of TX is a phase action on a state that stands as far in the character. -/
theorem State.Transmitting.tick (hc : start.cfg.WellFormed) (h : s.Transmitting start j k) :
    ∃ b : State, b.Transmitting start j k ∧ ∀ u, phaseAction b = .ok u →
      ∃ (rx tx : Ring) (port : Option PortOp) (result : Option Word32),
        step s = .next (b.endTick { u with rx := rx, tx := tx, port := port, result := result }) := by
  obtain ⟨cfg, ⟨hbuf, hpins, hport⟩, fault, client, phase, slot, counter, byte, ret, ie, savedIe⟩ := h
  obtain ⟨_, _, _, b, rfl, hact⟩ :=
    step_of_active (cfg ▸ hc) ⟨hbuf, hpins, hport⟩ fault client (by simp [phase]) (by simp [phase])
  refine ⟨_, ?_, hact⟩
  exact ⟨cfg, ⟨hbuf, hpins, hport⟩, fault, client, phase, slot, counter, byte, ret, ie, savedIe⟩

/-- A tick before the last of a slot. -/
theorem State.Transmitting.hold (hc : start.cfg.WellFormed) (h : s.Transmitting start j k)
    (hk : k + 1 < start.cfg.bit) : ∃ t, step s = .next t ∧ t.Transmitting start j (k + 1) := by
  obtain ⟨b, hb, hact⟩ := h.tick hc
  have hwait : b.counter < b.cfg.bit := by rwa [hb.counter, hb.cfg]
  obtain ⟨waits, -⟩ := txDrivesTheSlotsInTurn b hb.phase
  obtain ⟨rx, tx, port, result, hstep⟩ := hact _ (waits hwait)
  have hcount := State.endTick_counter_of_le_bit hb.cntRun (hb.cfg ▸ hc) hwait
  exact ⟨_, hstep, hb.cfg, h.invariants.step hstep, hb.fault, hb.client, hb.phase, hb.slot,
    hcount.trans (congrArg (· + 1) hb.counter), hb.byte, hb.ret, hb.ie, hb.savedIe⟩

/-- The last tick of a slot before the stop slot. -/
theorem State.Transmitting.next (hc : start.cfg.WellFormed) (h : s.Transmitting start j k)
    (hk : k + 1 = start.cfg.bit) (hj : j < 9) : ∃ t, step s = .next t ∧ t.Transmitting start (j + 1) 0 := by
  obtain ⟨b, hb, hact⟩ := h.tick hc
  have hdone : b.cfg.bit ≤ b.counter := by rw [hb.counter, hb.cfg, hk]
  obtain ⟨-, drives, -⟩ := txDrivesTheSlotsInTurn b hb.phase
  obtain ⟨i, hi, haction⟩ := drives hdone (by rwa [hb.slot])
  obtain ⟨rx, tx, port, result, hstep⟩ := hact _ haction
  have hcount := State.endTick_counter_of_le_bit (start := b)
    (s := { b with counter := 0 }) hb.cntRun (hb.cfg ▸ hc) (by rw [hb.cfg, ← hk]; exact Nat.le_add_left _ _)
  exact ⟨_, hstep, hb.cfg, h.invariants.step hstep, hb.fault, hb.client, hb.phase,
    hi.trans (congrArg (· + 1) hb.slot), hcount, hb.byte, hb.ret, hb.ie, hb.savedIe⟩

/-- The last tick of the stop slot. -/
theorem State.Transmitting.finish (hc : start.cfg.WellFormed) (h : s.Transmitting start 9 k)
    (hk : k + 1 = start.cfg.bit) :
    ∃ t, step s = .next t ∧ t.txOut = .high ∧ t.ie = start.savedIe ∧
      t.phase = if start.txRet = .flush then .flush else .opseq := by
  obtain ⟨b, hb, hact⟩ := h.tick hc
  have hdone : b.cfg.bit ≤ b.counter := by rw [hb.counter, hb.cfg, hk]
  obtain ⟨-, -, resumes⟩ := txDrivesTheSlotsInTurn b hb.phase
  obtain ⟨rx, tx, port, result, hstep⟩ := hact _ (resumes hdone hb.slot)
  exact ⟨_, hstep, hb.txOut, hb.savedIe, by rw [← hb.ret]; rfl⟩

/-- The ticks of one slot. -/
theorem State.Transmitting.holds (hc : start.cfg.WellFormed) (h : s.Transmitting start j 0) (hk : k < start.cfg.bit) :
    ∃ t, Sys2Proof.core.run k s = .next t ∧ t.Transmitting start j k := by
  induction k with
  | zero => exact ⟨s, rfl, h⟩
  | succ k ih =>
    obtain ⟨t, hrun, ht⟩ := ih (by omega)
    obtain ⟨u, hstep, hu⟩ := ht.hold hc hk
    exact ⟨u, (run_add_of_next k 1 hrun).trans (run_succ_of_next 0 hstep), hu⟩

/-- The slots before slot `j`. -/
theorem State.Transmitting.reaches (hc : start.cfg.WellFormed) (h : s.Transmitting start 0 0) (hj : j < 10) :
    ∃ t, Sys2Proof.core.run (j * start.cfg.bit) s = .next t ∧ t.Transmitting start j 0 := by
  induction j with
  | zero => exact ⟨s, by rw [Nat.zero_mul]; rfl, h⟩
  | succ j ih =>
    obtain ⟨last, hlast⟩ : ∃ last, last + 1 = start.cfg.bit := Nat.exists_add_one_eq.2 (Config.bit_pos hc)
    obtain ⟨t, hrun, ht⟩ := ih (by omega)
    obtain ⟨u, hslot, hu⟩ := ht.holds hc (k := last) (by omega)
    obtain ⟨v, hstep, hv⟩ := hu.next hc hlast (by omega)
    refine ⟨v, ?_, hv⟩
    rw [Nat.succ_mul, run_add_of_next _ _ hrun, ← hlast, run_add_of_next _ _ hslot]
    exact run_succ_of_next 0 hstep

end

/-- Settles O57: the ten slots, and the tick that ends the last. -/
theorem transmittedSlotsLastOneBitPeriod : Obligations.TransmittedSlotsLastOneBitPeriod := by
  intro s hc hbuf hpins hport hf hcl hp hslot hcount _
  have hstart : s.Transmitting s 0 0 :=
    ⟨rfl, ⟨hbuf, hpins, hport⟩, hf, hcl, hp, congrArg Fin.val hslot, hcount, rfl, rfl, rfl, rfl⟩
  have hreach : ∀ j k, j < 10 → k < s.cfg.bit →
      ∃ t, Sys2Proof.core.run (j * s.cfg.bit + k) s = .next t ∧ t.Transmitting s j k := fun j k hj hk => by
    obtain ⟨t, hrun, ht⟩ := hstart.reaches hc hj
    obtain ⟨u, hrun', hu⟩ := ht.holds hc hk
    exact ⟨u, (run_add_of_next _ k hrun).trans hrun', hu⟩
  refine ⟨fun j k hj hk => ?_, ?_⟩
  · obtain ⟨t, hrun, ht⟩ := hreach j k hj hk
    exact ⟨t, hrun, ht.phase, ht.ie, ht.txOut⟩
  · obtain ⟨last, hlast⟩ : ∃ last, last + 1 = s.cfg.bit := Nat.exists_add_one_eq.2 (Config.bit_pos hc)
    obtain ⟨t, hrun, ht⟩ := hreach 9 last (by omega) (by omega)
    obtain ⟨u, hstep, hu⟩ := ht.finish hc hlast
    rw [show 10 * s.cfg.bit = 9 * s.cfg.bit + last + 1 by omega]
    exact ⟨u, (run_add_of_next _ 1 hrun).trans (run_succ_of_next 0 hstep), hu⟩

/-! ### A received character -/

section
variable {s : State} {b : Byte}

/-- R144. -/
theorem phaseAction_of_edge (hp : s.phase = .listen) (hnow : s.now < s.windowStart + s.cfg.timeoutTicks)
    (hprev : s.prevRx = true) (hs : s.sample = false) :
    phaseAction s = .ok { s with savedIe := s.ie, ie := false, counter := 0, prevRx := false, phase := .rxHalf } := by
  rw [listenTestsTheTimeoutThenTheEdge s hp, if_neg hnow.not_ge, if_pos ⟨hprev, hs⟩]

theorem driverTurn_of_char {line : List LineItem} (h : s.peerLine = .char b :: line) :
    driverTurn s = .next { s with peerLine := charLevels s.cfg b ++ line } := by
  simp only [driverTurn, h]
  rfl

/-- The sample of a line at the level of a bit. -/
theorem State.sample_of_driven {v : Bool} (h : s.peerLine[0]? = some (.level (Pin.ofBit v))) : s.sample = v := by
  obtain ⟨rest, hfront⟩ := List.head?_eq_some_iff.1 (List.head?_eq_getElem?.trans h)
  obtain ⟨hlow, hhigh, -⟩ := sampleFollowsTheLineAndThePullUp s _ rest hfront
  cases v with
  | false => exact hlow rfl
  | true => exact hhigh rfl

end

theorem Config.half_pos {c : Config} (hc : c.WellFormed) : 0 < c.half :=
  Nat.div_pos hc.1 two_pos

theorem Config.half_lt_bit {c : Config} (hc : c.WellFormed) : c.half < c.bit :=
  Nat.div_lt_self (Config.bit_pos hc) one_lt_two

/-- The slot in the middle of which half a bit period and `k` bit periods end. -/
theorem Config.slot_at_middle {c : Config} (hc : c.WellFormed) (k : Nat) :
    (c.half + k * c.bit) / c.bit = k := by
  rw [Nat.add_mul_div_right _ _ (Config.bit_pos hc), Nat.div_eq_of_lt (Config.half_lt_bit hc), Nat.zero_add]

/-- Slot `j + 1` is data bit `j` (R90). -/
theorem slotOf_succ (byte : Byte) {j : Nat} (hj : j < 8) : slotOf byte (j + 1) = byte.getLsbD j := by
  rw [slotOf, if_neg j.succ_ne_zero, if_pos (Nat.succ_le_of_lt hj), Nat.add_sub_cancel]

/-- The phase of a reception in which `k` of the ten slots have been sampled. -/
def receivePhase (k : Nat) : Phase := if k = 0 then .rxHalf else if k ≤ 8 then .rxBit else .rxStop

theorem receivePhase_of_dataBit {k : Nat} (h0 : k ≠ 0) (h8 : k ≤ 8) : receivePhase k = .rxBit := by
  rw [receivePhase, if_neg h0, if_pos h8]

theorem receivePhase_period (c : Config) (k : Nat) : (receivePhase k).period c = if k = 0 then c.half else c.bit := by
  unfold receivePhase
  split_ifs <;> rfl

/-- The tick `n` ticks after the falling edge of the character `byte`, which came when the state was `start`: what the
reception leaves alone, and what the peer drives until the character ends. -/
structure State.DuringCharacter (s start : State) (byte : Byte) (n : Nat) : Prop where
  cfg : s.cfg = start.cfg
  fault : s.fault = none
  port : s.port = none
  client : s.client = []
  cntRun : s.cntRun = true
  fe : s.fe = start.fe
  rx : s.rx = start.rx
  savedIe : s.savedIe = start.ie
  time : s.now = start.now + n
  line : ∀ j, n + j < 10 * start.cfg.bit →
    s.peerLine[j]? = some (.level (Pin.ofBit (slotOf byte ((n + j) / start.cfg.bit))))

/-- Such a tick, with `k` of the ten slots sampled: slot `k` is next, half a bit period and `k` bit periods after the
edge. -/
structure State.Receiving (s start : State) (byte : Byte) (k n : Nat) : Prop
    extends s.DuringCharacter start byte n where
  phase : s.phase = receivePhase k
  counter : s.counter + (start.cfg.half + k * start.cfg.bit) = n + (receivePhase k).period start.cfg
  nextBit : receivePhase k = .rxBit → k = s.rxK.val + 1
  bits : ∀ j, j < 8 → j + 1 < k → s.rxAcc.getLsbD j = byte.getLsbD j

section
variable {start s b : State} {byte : Byte} {k n : Nat}

/-- The end of a tick whose action was one of the reception before the stop bit. -/
theorem State.DuringCharacter.endTick (h : b.DuringCharacter start byte n) (acc : Byte) (i : Fin 8) (c : Nat)
    (p : Phase) :
    (b.endTick { b with rxAcc := acc, rxK := i, counter := c, phase := p }).DuringCharacter start byte (n + 1) := by
  obtain ⟨cfg, fault, port, client, cntRun, fe, rx, savedIe, time, line⟩ := h
  refine ⟨cfg, fault, port, client, cntRun, fe, rx, savedIe, congrArg (· + 1) time, fun j hj => ?_⟩
  rw [Nat.succ_add_eq_add_succ] at hj ⊢
  exact List.getElem?_tail.trans (line (j + 1) hj)

/-- A tick of the reception is a phase action on a state that stands as far in it, and samples the slot of the tick. -/
theorem State.Receiving.tick (hc : start.cfg.WellFormed) (h : s.Receiving start byte k n)
    (hn : n < 10 * start.cfg.bit) :
    ∃ b : State, b.Receiving start byte k n ∧ b.sample = slotOf byte (n / start.cfg.bit) ∧
      ∀ u, phaseAction b = .ok u → step s = .next (b.endTick u) := by
  obtain ⟨⟨cfg, fault, port, client, cntRun, fe, rx, savedIe, time, line⟩, phase, counter, nextBit, bits⟩ := h
  obtain ⟨rest, hfront⟩ := List.head?_eq_some_iff.1 (List.head?_eq_getElem?.trans (line 0 hn))
  obtain ⟨_, _, driven, b, rfl, hkeep, hstep⟩ := step_of_quiet (cfg ▸ hc) fault port client
  obtain rfl := hkeep _ _ hfront
  refine ⟨_, ?_, State.sample_of_driven (by exact line 0 hn), hstep⟩
  exact ⟨⟨cfg, fault, port, client, cntRun, fe, rx, savedIe, time, line⟩, phase, counter, nextBit, bits⟩

/-- A tick before slot `k` is sampled. -/
theorem State.Receiving.wait (hc : start.cfg.WellFormed) (h : s.Receiving start byte k n)
    (hk : k ≤ 9) (hn : n < start.cfg.half + k * start.cfg.bit) :
    ∃ t, step s = .next t ∧ t.Receiving start byte k (n + 1) := by
  have hlt := Config.half_lt_bit hc
  have hslots : k * start.cfg.bit ≤ 9 * start.cfg.bit := Nat.mul_le_mul_right _ hk
  obtain ⟨b, hb, -, hstep⟩ := h.tick hc (by omega)
  have hcounter := hb.counter
  have hwait : b.counter < (receivePhase k).period start.cfg := by omega
  have haction := phaseAction_of_waiting (s := b) (by rwa [hb.phase, hb.cfg])
  have hcount := State.endTick_counter_of_le_bit hb.cntRun (s := b) (hb.cfg ▸ hc)
    (by rw [hb.cfg]; exact hwait.trans_le (Phase.period_le_bit _ _))
  exact ⟨_, hstep b haction, hb.endTick b.rxAcc b.rxK b.counter b.phase, hb.phase, by rw [hcount]; omega, hb.nextBit,
    hb.bits⟩

/-- The state that the tick which samples slot `k < 9` leaves: the start bit is confirmed, or a data bit is taken. -/
def State.afterSlot (b : State) (k : Nat) (acc : Byte) (i : Fin 8) : State :=
  { b with rxAcc := acc, rxK := i, counter := 0, phase := receivePhase (k + 1) }

/-- The action of a tick samples slot `k`, after which `acc` holds the data bits of `byte` up to that slot. -/
structure State.TakesSlot (b : State) (byte : Byte) (k : Nat) (acc : Byte) (i : Fin 8) : Prop where
  action : phaseAction b = .ok (b.afterSlot k acc i)
  nextBit : receivePhase (k + 1) = .rxBit → k = i.val
  bits : ∀ j, j < 8 → j < k → acc.getLsbD j = byte.getLsbD j

/-- The action of the tick that confirms the start bit. -/
theorem State.Receiving.startBit (h : b.Receiving start byte 0 n) (hn : n = start.cfg.half)
    (hsample : b.sample = slotOf byte 0) : b.TakesSlot byte 0 0 0 := by
  have hdone : b.counter = b.cfg.half := by
    have hcounter := h.counter
    rw [h.cfg]
    simp only [receivePhase_period, if_true] at hcounter
    omega
  have hlow : b.sample ≠ true := by rw [hsample]; exact Bool.false_ne_true
  have haction := halfBitRecheckRejectsFalseStarts b h.phase
  rw [if_neg hdone.not_lt, if_neg hlow] at haction
  exact ⟨haction, fun _ => rfl, fun j _ hj => absurd hj (Nat.not_lt_zero j)⟩

/-- The action of the tick that takes data bit `k - 1`. -/
theorem State.Receiving.dataBit (h : b.Receiving start byte k n) (h0 : k ≠ 0) (h8 : k ≤ 8)
    (hn : n = start.cfg.half + k * start.cfg.bit) (hsample : b.sample = slotOf byte k) :
    ∃ (acc : Byte) (i : Fin 8), b.TakesSlot byte k acc i := by
  have hphase : receivePhase k = .rxBit := receivePhase_of_dataBit h0 h8
  have hdone : b.cfg.bit ≤ b.counter := by
    have hcounter := h.counter
    rw [h.cfg]
    simp only [receivePhase_period, if_neg h0] at hcounter
    omega
  have hk : k = b.rxK.val + 1 := h.nextBit hphase
  obtain ⟨-, takes⟩ := dataBitsAreAccumulatedInOrder b (h.phase.trans hphase)
  obtain ⟨acc, i, p, haction, hacc, hnext⟩ := takes hdone
  have hbits : ∀ j, j < 8 → j < k → acc.getLsbD j = byte.getLsbD j := fun j hj8 hj => by
    rw [hacc j hj8]
    split_ifs with hlast
    · rw [hsample, hk, ← hlast, slotOf_succ byte hj8]
    · exact h.bits j hj8 (by omega)
  by_cases h7 : b.rxK.val = 7
  · rw [if_pos h7] at hnext
    obtain ⟨rfl, rfl⟩ := hnext
    obtain rfl : k = 8 := by omega
    exact ⟨acc, b.rxK, haction, fun hbit => absurd hbit (by decide), hbits⟩
  · rw [if_neg h7] at hnext
    obtain ⟨hi, rfl⟩ := hnext
    refine ⟨acc, i, ?_, fun _ => by omega, hbits⟩
    rw [State.afterSlot, receivePhase_of_dataBit k.succ_ne_zero (by omega), haction]

/-- The tick that samples slot `k`, before the stop bit. -/
theorem State.Receiving.sample (hc : start.cfg.WellFormed)
    (h : s.Receiving start byte k (start.cfg.half + k * start.cfg.bit)) (hk : k ≤ 8) :
    ∃ t, step s = .next t ∧ t.Receiving start byte (k + 1) (start.cfg.half + k * start.cfg.bit + 1) := by
  have hlt := Config.half_lt_bit hc
  have hslots : k * start.cfg.bit ≤ 8 * start.cfg.bit := Nat.mul_le_mul_right _ hk
  obtain ⟨b, hb, hsample, hstep⟩ := h.tick hc (by omega)
  rw [Config.slot_at_middle hc] at hsample
  obtain ⟨acc, i, haction, hnext, hbits⟩ : ∃ (acc : Byte) (i : Fin 8), b.TakesSlot byte k acc i := by
    by_cases h0 : k = 0
    · subst h0
      exact ⟨0, 0, hb.startBit (by omega) hsample⟩
    · exact hb.dataBit h0 hk rfl hsample
  have hcount : (b.endTick (b.afterSlot k acc i)).counter = 1 :=
    State.endTick_counter_of_le_bit hb.cntRun (hb.cfg ▸ hc) (hb.cfg ▸ (Nat.zero_lt_of_lt hlt))
  refine ⟨_, hstep _ haction, hb.endTick acc i 0 (receivePhase (k + 1)), rfl, ?_, fun hbit => ?_,
    fun j hj8 hj => ?_⟩
  · rw [hcount, receivePhase_period, if_neg k.succ_ne_zero, Nat.succ_mul]
    omega
  · exact congrArg (· + 1) (hnext hbit)
  · exact hbits j hj8 (by omega)

/-- The tick that samples the stop bit. -/
theorem State.Receiving.stopBit (hc : start.cfg.WellFormed) (hrx : start.rx.Ok start.cfg.cap)
    (h : s.Receiving start byte 9 (start.cfg.half + 9 * start.cfg.bit)) :
    ∃ t, step s = .next t ∧ t.phase = .listen ∧ t.fe = start.fe ∧ t.ie = start.ie ∧ t.prevRx = true ∧
      t.windowStart = start.now + start.cfg.half + 9 * start.cfg.bit ∧
      t.rx.contents start.cfg.cap =
        if (start.rx.contents start.cfg.cap).length < start.cfg.cap - 1 then start.rx.contents start.cfg.cap ++ [byte]
        else start.rx.contents start.cfg.cap := by
  have hlt := Config.half_lt_bit hc
  obtain ⟨b, hb, hsample, hstep⟩ := h.tick hc (by omega)
  rw [Config.slot_at_middle hc] at hsample
  have hhigh : b.sample = true := hsample
  have hbyte : b.rxAcc = byte := BitVec.eq_of_getLsbD_eq fun j hj => hb.bits j hj (by omega)
  have hdone : b.cfg.bit ≤ b.counter := by
    have hcounter := hb.counter
    rw [hb.cfg]
    rw [receivePhase_period, if_neg (Nat.succ_ne_zero 8)] at hcounter
    omega
  obtain ⟨-, pushes⟩ := stopBitPushesTheByte b hb.phase (by rwa [hb.rx, hb.cfg])
  have haction := pushes hdone
  rw [if_neg (by simp [hhigh]), hhigh, hb.rx, hb.cfg, hbyte] at haction
  refine ⟨_, hstep _ haction, rfl, hb.fe, hb.savedIe, rfl, hb.time.trans (Nat.add_assoc _ _ _).symm, ?_⟩
  exact Ring.contents_push hrx (Ring.push_of_ok (b := .rx) hrx)

end

/-- `n` ticks after `start` the reception of `byte` has sampled `k` slots. -/
def State.ReceivesAfter (start : State) (byte : Byte) (k n : Nat) : Prop :=
  ∃ t, Sys2Proof.core.run n start = .next t ∧ t.Receiving start byte k n

section
variable {start : State} {byte : Byte} {k n : Nat}

/-- The ticks up to the one that samples slot `k`. -/
theorem State.ReceivesAfter.middle (hc : start.cfg.WellFormed) (hk : k ≤ 9) (h : start.ReceivesAfter byte k n)
    (hn : n ≤ start.cfg.half + k * start.cfg.bit) :
    start.ReceivesAfter byte k (start.cfg.half + k * start.cfg.bit) := by
  induction hn using Nat.decreasingInduction with
  | self => exact h
  | of_succ m hm ih =>
    obtain ⟨t, hrun, ht⟩ := h
    obtain ⟨u, hstep, hu⟩ := ht.wait hc hk hm
    exact ih ⟨u, (run_add_of_next m 1 hrun).trans (run_succ_of_next 0 hstep), hu⟩

/-- From the falling edge to the middle of slot `k`. -/
theorem State.ReceivesAfter.slot (hc : start.cfg.WellFormed) (h : start.ReceivesAfter byte 0 1) (hk : k ≤ 9) :
    start.ReceivesAfter byte k (start.cfg.half + k * start.cfg.bit) := by
  have hpos := Config.half_pos hc
  have hlt := Config.half_lt_bit hc
  induction k with
  | zero => exact h.middle hc hk (by omega)
  | succ k ih =>
    obtain ⟨t, hrun, ht⟩ := ih (by omega)
    obtain ⟨u, hstep, hu⟩ := ht.sample hc (by omega)
    have hafter : start.ReceivesAfter byte (k + 1) (start.cfg.half + k * start.cfg.bit + 1) :=
      ⟨u, (run_add_of_next _ 1 hrun).trans (run_succ_of_next 0 hstep), hu⟩
    exact hafter.middle hc hk (by rw [Nat.succ_mul]; omega)

end

/-- With a free port and a silent client, a tick at which a character is the peer's turn is a phase action on a state in
which the peer drives the levels of the character. -/
theorem step_of_char {s : State} {byte : Byte} {line : List LineItem} (hc : s.cfg.WellFormed) (hf : s.fault = none)
    (hp : s.port = none) (hcl : s.client = []) (hline : s.peerLine = .char byte :: line) :
    ∃ (hostIn : List Byte) (events : List Event) (b : State),
      b = State.beginTick
        { s with hostIn := hostIn, hostEvents := events, peerLine := charLevels s.cfg byte ++ line } ∧
      ∀ u, phaseAction b = .ok u → step s = .next (b.endTick u) := by
  obtain ⟨hostIn, events, hdec⟩ := decoderTurn_frame s
  have hdrv := driverTurn_of_char (s := { s with hostIn := hostIn, hostEvents := events }) hline
  refine ⟨hostIn, events, _, rfl, fun u hu => ?_⟩
  obtain ⟨-, hport, -, -, -, -, hclient, -⟩ := (phaseAction_move hu).frame
  exact (stepRunsTheOperationInProgress s _ _ u hc hdec hdrv hf hu).2 (hport.trans hp) (hclient.trans hcl)

/-- The tick that finds the falling edge of a character. -/
theorem receivesAfter_of_edge {s : State} {byte : Byte} {line : List LineItem} (hc : s.cfg.WellFormed)
    (hpins : s.PinsFollowPhase) (hf : s.fault = none) (hcl : s.client = []) (hport : s.port = none)
    (hp : s.phase = .listen) (hprev : s.prevRx = true) (hnow : s.now < s.windowStart + s.cfg.timeoutTicks)
    (hline : s.peerLine = .char byte :: line) : s.ReceivesAfter byte 0 1 := by
  obtain ⟨-, -, hrun, -⟩ := (pinsFollowPhase_receives (.inl hp)).1 hpins
  have hbit := Config.bit_pos hc
  have hlen := charLevels_length s.cfg byte
  obtain ⟨_, _, b, rfl, hstep⟩ := step_of_char hc hf hport hcl hline
  have hlevel : ∀ j, j < 10 * s.cfg.bit →
      (charLevels s.cfg byte ++ line)[j]? = some (.level (Pin.ofBit (slotOf byte (j / s.cfg.bit)))) := fun j hj => by
    rw [List.getElem?_append_left (by omega), charLevels_getElem? s.cfg byte hj]
  have hstart : (charLevels s.cfg byte ++ line)[0]? = some (.level (Pin.ofBit false)) := by
    rw [hlevel 0 (by omega), Nat.zero_div]
    rfl
  have hcount := State.endTick_counter_of_le_bit (start := s) (s := { s with counter := 0 }) hrun hc hbit
  refine ⟨_, run_succ_of_next 0 (hstep _ (phaseAction_of_edge (by exact hp) (by exact hnow) (by exact hprev)
      (State.sample_of_driven (by exact hstart)))),
    ⟨rfl, hf, hport, hcl, hrun, rfl, rfl, rfl, rfl, fun j hj => ?_⟩, rfl, ?_, fun h => absurd h (by decide),
    fun j _ hj => absurd hj (by omega)⟩
  · rw [Nat.add_comm] at hj ⊢
    exact List.getElem?_tail.trans (hlevel (j + 1) hj)
  · have hperiod : (receivePhase 0).period s.cfg = s.cfg.half := rfl
    rw [hperiod, Nat.zero_mul, Nat.add_zero]
    exact congrArg (· + s.cfg.half) hcount

/-- Settles O58: the tick of the edge, the nine slots before the stop bit, and the stop bit. -/
theorem matchingCharactersAreReceived : Obligations.MatchingCharactersAreReceived := by
  intro s byte line hc hbuf hpins _ hf hcl hport hp hprev hnow hline
  have hedge := receivesAfter_of_edge hc hpins hf hcl hport hp hprev hnow hline
  obtain ⟨hrx, -⟩ := hbuf
  obtain ⟨t, hrun, ht⟩ := hedge.slot hc (k := 9) le_rfl
  obtain ⟨u, hstep, hu⟩ := ht.stopBit hc hrx
  exact ⟨u, (run_add_of_next _ 1 hrun).trans (run_succ_of_next 0 hstep), hu⟩

end Sys2Proof.Machine
end

section
/-! PROOFS. The framer (spec 42_framer.md). The reference decoder is settled on its scanners: each of R192 to R196 is an
equation of one scanner, lifted to `hostDecode` by one step of it. Two facts about the scanners carry the rest: a frame of
a builder is read as its event whatever follows it, and what the front of a stream is read as does not change when bytes
are appended. The read primitives go through the lemmas of a port operation. -/

namespace Sys2Proof.Machine

/-! ### What a well-formed configuration gives (R10) -/

theorem Config.one_le_maxDebugPayload {c : Config} (hc : c.WellFormed) : 1 ≤ c.maxDebugPayload := by
  obtain ⟨-, -, -, -, h, -⟩ := hc
  exact h

theorem Config.maxLine_le_255 {c : Config} (hc : c.WellFormed) : c.maxLine ≤ 255 := by
  obtain ⟨-, -, -, -, -, h, -⟩ := hc
  exact h

theorem Config.markers_nodup {c : Config} (hc : c.WellFormed) : c.markers.Nodup := by
  obtain ⟨-, -, -, -, -, -, -, -, h⟩ := hc
  exact h

/-! ### Chunks of a debug text (R181) -/

section
variable {m n : Nat}

@[simp] theorem chunksUpTo_nil (n m : Nat) : chunksUpTo n m [] = [] := by
  cases n <;> rfl

theorem chunksUpTo_succ {s : List Byte} (hs : s ≠ []) :
    chunksUpTo (n + 1) m s = s.take m :: chunksUpTo n m (s.drop m) := by
  obtain ⟨b, r, rfl⟩ := List.exists_cons_of_ne_nil hs
  rfl

/-- After a chunk of at least one byte the bound on the number of chunks still suffices. -/
theorem length_drop_le_of_le_succ {s : List Byte} (hm : 1 ≤ m) (hn : s.length ≤ n + 1) : (s.drop m).length ≤ n := by
  rw [List.length_drop]
  omega

theorem chunksUpTo_flatten (hm : 1 ≤ m) {s : List Byte} (hn : s.length ≤ n) : (chunksUpTo n m s).flatten = s := by
  induction n generalizing s with
  | zero => simp [List.eq_nil_of_length_eq_zero (Nat.le_zero.1 hn)]
  | succ n ih =>
    by_cases hs : s = []
    · simp [hs]
    · rw [chunksUpTo_succ hs, List.flatten_cons, ih (length_drop_le_of_le_succ hm hn), List.take_append_drop]

theorem chunksUpTo_chunk (hm : 1 ≤ m) {s d : List Byte} (hd : d ∈ chunksUpTo n m s) : d ≠ [] ∧ d.length ≤ m := by
  induction n generalizing s with
  | zero => cases hd
  | succ n ih =>
    by_cases hs : s = []
    · simp [hs] at hd
    · rw [chunksUpTo_succ hs, List.mem_cons] at hd
      rcases hd with rfl | hd
      · exact ⟨by simp [hs]; omega, List.length_take_le m s⟩
      · exact ih hd

/-- Only the last chunk can be short: a chunk with another one after it leaves bytes behind. -/
theorem chunksUpTo_dropLast {s d : List Byte} (hd : d ∈ (chunksUpTo n m s).dropLast) : d.length = m := by
  induction n generalizing s with
  | zero => cases hd
  | succ n ih =>
    by_cases hs : s = []
    · simp [hs] at hd
    · rw [chunksUpTo_succ hs] at hd
      by_cases hrest : chunksUpTo n m (s.drop m) = []
      · simp [hrest] at hd
      · rw [List.dropLast_cons_of_ne_nil hrest, List.mem_cons] at hd
        rcases hd with rfl | hd
        · have hleft : ¬ s.length ≤ m := fun hle => hrest (by rw [List.drop_eq_nil_of_le hle, chunksUpTo_nil])
          exact List.length_take_of_le (by omega)
        · exact ih hd

/-- The number of chunks is the length over `m`, rounded up. -/
theorem chunksUpTo_length (hm : 1 ≤ m) {s : List Byte} (hn : s.length ≤ n) :
    (chunksUpTo n m s).length = (s.length + m - 1) / m := by
  induction n generalizing s with
  | zero =>
    rw [List.eq_nil_of_length_eq_zero (Nat.le_zero.1 hn)]
    exact (Nat.div_eq_of_lt (by simp; omega)).symm
  | succ n ih =>
    by_cases hs : s = []
    · simpa [hs] using (Nat.div_eq_of_lt (by omega)).symm
    · have hpos := List.length_pos_iff.2 hs
      have hround : (s.length + m - 1) / m = (s.length - 1) / m + 1 := by
        rw [← Nat.add_div_right _ hm]
        congr 1
        omega
      rw [chunksUpTo_succ hs, List.length_cons, ih (length_drop_le_of_le_succ hm hn), List.length_drop, hround]
      congr 1
      rcases Nat.le_total m s.length with hle | hlt
      · rw [Nat.sub_add_cancel hle]
      · rw [Nat.div_eq_of_lt (by omega), Nat.div_eq_of_lt (by omega)]

/-- Two marker bytes a frame (R95). -/
theorem length_flatten_debugFrames (c : Config) (ds : List (List Byte)) :
    ((ds.map (debugFrameBytes c)).flatten).length = ds.flatten.length + 2 * ds.length := by
  induction ds with
  | nil => rfl
  | cons d ds ih =>
    simp only [List.map_cons, List.flatten_cons, List.length_append, List.length_cons, ih, debugFrameBytes,
      List.length_nil]
    omega

end

/-- Settles O12: the chunks put together, each chunk, all but the last, and their number. -/
theorem debugChunksCutTheText : Obligations.DebugChunksCutTheText := by
  intro c text hc
  have hm := Config.one_le_maxDebugPayload hc
  have hflat : (debugChunks c text).flatten = text := chunksUpTo_flatten hm le_rfl
  have hcount : (debugChunks c text).length = (text.length + c.maxDebugPayload - 1) / c.maxDebugPayload :=
    chunksUpTo_length hm le_rfl
  refine ⟨hflat, fun d hd => chunksUpTo_chunk hm hd, fun d hd => chunksUpTo_dropLast hd, ?_⟩
  rw [debugFramesBytes, length_flatten_debugFrames, hflat, hcount]

/-! ### One event of the reference decoder (R191) -/

section
variable {c : Config} {b : Byte} {s : List Byte}

theorem hostDecode_of_wait (h : scanAt c b s = .wait) : hostDecode c (b :: s) = [.incomplete (b :: s)] := by
  rw [hostDecode_cons, h]

theorem hostDecode_of_item {e : Event} {rest : List Byte} (h : scanAt c b s = .item e rest) :
    hostDecode c (b :: s) = e :: hostDecode c rest := by
  rw [hostDecode_cons, h]

end

/-! ### The key frame (R192) -/

section
variable {c : Config}

theorem scanKey_of_short {s : List Byte} (h : s.length < 3) : scanKey c s = .wait := by
  match s, h with
  | [], _ | [_], _ | [_, _], _ => rfl

theorem scanKey_whole (code x e : Byte) (rest : List Byte) :
    scanKey c (code :: x :: e :: rest) =
      if e ≠ c.mKeyEnd then .item (.badEnd .key) (code :: x :: e :: rest)
      else if x ≠ keyChk c code then .item (.keyBadChk code x) rest
      else .item (.key code) rest := rfl

end

/-- Settles O13: too few bytes, or the three checks of a whole frame. -/
theorem decoderReadsKeyFrames : Obligations.DecoderReadsKeyFrames := by
  intro c _
  refine ⟨fun s hs => hostDecode_of_wait ((scanAt_mKeyStart s).trans (scanKey_of_short hs)), fun code x e rest => ?_⟩
  rw [hostDecode_cons, scanAt_mKeyStart, scanKey_whole, keyChk]
  split_ifs <;> rfl

/-! ### The line frame (R193) -/

section
variable {c : Config}

theorem scanLine_of_tooLong {len : Byte} (h : c.maxLine < len.toNat) (s : List Byte) :
    scanLine c (len :: s) = .item (.lineBadLen len) (len :: s) := if_pos h

theorem scanLine_of_short {len : Byte} {s : List Byte} (hlen : len.toNat ≤ c.maxLine) (hs : s.length < len.toNat + 2) :
    scanLine c (len :: s) = .wait := by
  have hdrop : (s.drop len.toNat).length < 2 := by
    rw [List.length_drop]
    omega
  simp only [scanLine, if_neg (Nat.not_lt.2 hlen)]
  match s.drop len.toNat, hdrop with
  | [], _ | [_], _ => rfl

theorem scanLine_whole {len : Byte} (x e : Byte) {chars : List Byte} (rest : List Byte) (hlen : len.toNat ≤ c.maxLine)
    (hchars : chars.length = len.toNat) :
    scanLine c (len :: (chars ++ x :: e :: rest)) =
      if e ≠ c.mLineEnd then .item (.badEnd .line) (len :: (chars ++ x :: e :: rest))
      else if x ≠ lineChk c chars then .item (.lineBadChk chars x) rest
      else .item (.line chars) rest := by
  simp only [scanLine, if_neg (Nat.not_lt.2 hlen), List.drop_left' hchars, List.take_left' hchars]

/-- The checksum of a line by its length byte (R180). -/
theorem lineChk_of_length {len : Byte} {chars : List Byte} (h : chars.length = len.toNat) :
    lineChk c chars = c.mLineStart ^^^ len ^^^ xorAll chars := by
  rw [lineChk, h, BitVec.ofNat_toNat, BitVec.setWidth_eq]

end

/-- Settles O14: no length byte, a length above `MAX_LINE`, too few bytes, or the checks of a whole frame. -/
theorem decoderReadsLineFrames : Obligations.DecoderReadsLineFrames := by
  intro c hc
  have hm := Config.markers_nodup hc
  refine ⟨hostDecode_of_wait (scanAt_mLineStart hm []), fun len s hlen => ?_, fun len s hlen hs => ?_,
    fun len x e chars rest hlen hchars => ?_⟩
  · exact hostDecode_of_item ((scanAt_mLineStart hm _).trans (scanLine_of_tooLong hlen s))
  · exact hostDecode_of_wait ((scanAt_mLineStart hm _).trans (scanLine_of_short hlen hs))
  · rw [hostDecode_cons, scanAt_mLineStart hm, scanLine_whole x e rest hlen hchars, lineChk_of_length hchars]
    split_ifs <;> rfl

/-! ### The debug frame (R194) -/

/-- No end marker where it can stand: more bytes could still bring it, or the frame is broken. -/
theorem scanDebug_of_noEnd {c : Config} {s : List Byte} (h : c.mDbgEnd ∉ s.take (c.maxDebugPayload + 1)) :
    scanDebug c s = if s.length < c.maxDebugPayload + 1 then .wait else .item (.badEnd .debug) s := by
  have htext : (s.take (c.maxDebugPayload + 1)).takeWhile (fun b => b != c.mDbgEnd) =
      s.take (c.maxDebugPayload + 1) :=
    List.takeWhile_eq_self_iff.2 fun b hb => bne_iff_ne.2 (ne_of_mem_of_not_mem hb h)
  simp only [scanDebug, htext, List.drop_length]

/-- Settles O15: the first end marker ends the text, or there is none where it can stand. -/
theorem decoderReadsDebugFrames : Obligations.DecoderReadsDebugFrames := by
  intro c hc
  have hm := Config.markers_nodup hc
  refine ⟨fun text rest hend hlen => ?_, fun s hend => ?_⟩
  · exact hostDecode_of_item ((scanAt_mDbgStart hm _).trans (scanDebug_frame hlen hend rest))
  · rw [hostDecode_cons, scanAt_mDbgStart hm, scanDebug_of_noEnd hend]
    split_ifs <;> rfl

/-! ### The ready frame and every other byte (R195, R196) -/

section
variable {c : Config}

theorem scanReady_of_notPad {b : Byte} (h : b ≠ c.mPad) (s : List Byte) :
    scanReady c (b :: s) = .item (.skip c.mPad) (b :: s) := if_pos h

theorem scanReady_of_notReady {e : Byte} (h : e ≠ c.mReady) (s : List Byte) :
    scanReady c (c.mPad :: e :: s) = .item (.skip c.mPad) (c.mPad :: e :: s) := by
  simp only [scanReady, ne_eq, not_true_eq_false, if_false, if_neg h]

theorem scanReady_onePad : scanReady c [c.mPad] = .wait := by
  simp [scanReady]

theorem scanAt_of_noStart {b : Byte} (hkey : b ≠ c.mKeyStart) (hline : b ≠ c.mLineStart) (hdbg : b ≠ c.mDbgStart)
    (hpad : b ≠ c.mPad) (s : List Byte) : scanAt c b s = .item (.skip b) s := by
  simp only [scanAt, if_neg hkey, if_neg hline, if_neg hdbg, if_neg hpad]

end

/-- Settles O16: the whole frame, its two beginnings, the padding byte before any other byte, and a byte that
begins no frame. -/
theorem decoderReadsReadyFramesAndSkips : Obligations.DecoderReadsReadyFramesAndSkips := by
  intro c hc
  have hm := Config.markers_nodup hc
  refine ⟨fun rest => ?_, ?_, ?_, fun b s hb => ?_, fun e s he => ?_, fun b s hkey hline hdbg hpad => ?_⟩
  · exact hostDecode_of_item ((scanAt_mPad hm _).trans (scanReady_frame rest))
  · exact hostDecode_of_wait (scanAt_mPad hm [])
  · exact hostDecode_of_wait ((scanAt_mPad hm _).trans scanReady_onePad)
  · exact hostDecode_of_item ((scanAt_mPad hm _).trans (scanReady_of_notPad hb s))
  · exact hostDecode_of_item ((scanAt_mPad hm _).trans (scanReady_of_notReady he s))
  · exact hostDecode_of_item (scanAt_of_noStart hkey hline hdbg hpad s)

/-! ### The frames of the builders (R197) -/

/-- The decoder reads `bytes` at the front of any stream as the event `e` and continues after them. -/
def ReadsAs (c : Config) (bytes : List Byte) (e : Event) : Prop :=
  ∃ b s, bytes = b :: s ∧ ∀ rest, scanAt c b (s ++ rest) = .item e rest

section
variable {c : Config}

theorem ReadsAs.hostDecode {bytes : List Byte} {e : Event} (h : ReadsAs c bytes e) (rest : List Byte) :
    hostDecode c (bytes ++ rest) = e :: hostDecode c rest := by
  obtain ⟨b, s, rfl, hs⟩ := h
  exact hostDecode_of_item (hs rest)

theorem keyFrameBytes_readsAs (code : Byte) : ReadsAs c (keyFrameBytes c code) (.key code) :=
  ⟨_, _, rfl, fun rest => (scanAt_mKeyStart _).trans (scanKey_frame code rest)⟩

theorem lineFrameBytes_readsAs (hm : c.markers.Nodup) (hmax : c.maxLine ≤ 255) {chars : List Byte}
    (hlen : chars.length ≤ c.maxLine) : ReadsAs c (lineFrameBytes c chars) (.line chars) := by
  refine ⟨_, _, rfl, fun rest => (scanAt_mLineStart hm _).trans ?_⟩
  simpa using scanLine_frame hmax hlen rest

theorem debugFrameBytes_readsAs (hm : c.markers.Nodup) {text : List Byte} (hlen : text.length ≤ c.maxDebugPayload)
    (hend : c.mDbgEnd ∉ text) : ReadsAs c (debugFrameBytes c text) (.debug text) := by
  refine ⟨_, _, rfl, fun rest => (scanAt_mDbgStart hm _).trans ?_⟩
  simpa using scanDebug_frame hlen hend rest

theorem readyFrameBytes_readsAs (hm : c.markers.Nodup) : ReadsAs c (readyFrameBytes c) .ready :=
  ⟨_, _, rfl, fun rest => (scanAt_mPad hm _).trans (scanReady_frame rest)⟩

/-- Debug frames one after another are read as their texts. -/
theorem hostDecode_debugFrames (hm : c.markers.Nodup) {ds : List (List Byte)}
    (hds : ∀ d ∈ ds, d.length ≤ c.maxDebugPayload ∧ c.mDbgEnd ∉ d) (rest : List Byte) :
    hostDecode c ((ds.map (debugFrameBytes c)).flatten ++ rest) = ds.map .debug ++ hostDecode c rest := by
  induction ds with
  | nil => rfl
  | cons d ds ih =>
    obtain ⟨⟨hlen, hend⟩, htail⟩ := List.forall_mem_cons.1 hds
    rw [List.map_cons, List.flatten_cons, List.append_assoc, (debugFrameBytes_readsAs hm hlen hend).hostDecode,
      ih htail]
    rfl

end

/-- Settles O17: each builder's frame is read as its event; no chunk of a text without the end marker holds it. -/
theorem framesDecodeToTheirEvents : Obligations.FramesDecodeToTheirEvents := by
  intro c rest hc
  have hcut := fun text => debugChunksCutTheText c text hc
  have hm := Config.markers_nodup hc
  have hmax := Config.maxLine_le_255 hc
  refine ⟨fun code => (keyFrameBytes_readsAs code).hostDecode rest,
    fun chars hlen => (lineFrameBytes_readsAs hm hmax hlen).hostDecode rest,
    (readyFrameBytes_readsAs hm).hostDecode rest, fun text hend => ?_⟩
  obtain ⟨hflat, hchunk, -, -⟩ := hcut text
  refine ⟨hostDecode_debugFrames hm (fun d hd => ⟨(hchunk d hd).2, fun hmem => hend ?_⟩) rest, hflat⟩
  exact hflat ▸ List.mem_flatten_of_mem hd hmem

/-! ### A growing stream (log 10) -/

section
variable {c : Config} {s r : List Byte} {e : Event}

theorem scanKey_append (h : scanKey c s = .item e r) (later : List Byte) :
    scanKey c (s ++ later) = .item e (r ++ later) := by
  match s, h with
  | code :: x :: fin :: rest, h =>
    rw [scanKey_whole] at h
    simp only [List.cons_append]
    rw [scanKey_whole]
    split_ifs at h ⊢ <;> cases h <;> rfl

/-- A stream of at least `k + 2` bytes, cut into the characters, the checksum and the end marker of a line frame. -/
theorem exists_line_of_le_length {k : Nat} (h : k + 2 ≤ s.length) :
    ∃ (chars : List Byte) (x fin : Byte) (rest : List Byte), s = chars ++ x :: fin :: rest ∧ chars.length = k := by
  refine ⟨s.take k, s[k], s[k + 1], s.drop (k + 2), ?_, List.length_take_of_le (by omega)⟩
  rw [← List.drop_eq_getElem_cons, ← List.drop_eq_getElem_cons, List.take_append_drop]

/-- A line frame is read from its length byte and the characters, which the stream holds unless there are too many. -/
theorem scanLine_append (h : scanLine c s = .item e r) (later : List Byte) :
    scanLine c (s ++ later) = .item e (r ++ later) := by
  match s, h with
  | len :: s, h =>
    rcases Nat.lt_or_ge c.maxLine len.toNat with hlong | hlen
    · rw [scanLine_of_tooLong hlong] at h
      cases h
      exact scanLine_of_tooLong hlong _
    · rcases Nat.lt_or_ge s.length (len.toNat + 2) with hs | hs
      · rw [scanLine_of_short hlen hs] at h
        cases h
      · obtain ⟨chars, x, fin, rest, rfl, hchars⟩ := exists_line_of_le_length hs
        rw [scanLine_whole x fin rest hlen hchars] at h
        have hwhole := scanLine_whole x fin (rest ++ later) hlen hchars
        simp only [List.cons_append, List.append_assoc]
        rw [hwhole]
        split_ifs at h ⊢ <;> cases h <;> simp

/-- A stream with an end marker where one can stand, cut at the first. -/
theorem exists_debugText (h : c.mDbgEnd ∈ s.take (c.maxDebugPayload + 1)) :
    ∃ text rest : List Byte, s = text ++ c.mDbgEnd :: rest ∧ text.length ≤ c.maxDebugPayload ∧ c.mDbgEnd ∉ text := by
  obtain ⟨text, rest, hcut, hfirst⟩ := List.eq_append_cons_of_mem h
  refine ⟨text, rest ++ s.drop (c.maxDebugPayload + 1), ?_, ?_, hfirst⟩
  · rw [← List.cons_append, ← List.append_assoc, ← hcut, List.take_append_drop]
  · have hlen := (congrArg List.length hcut).symm.trans_le (List.length_take_le _ _)
    rw [List.length_append, List.length_cons] at hlen
    omega

/-- A debug frame is read from the bytes among which its end marker can stand. -/
theorem scanDebug_append (h : scanDebug c s = .item e r) (later : List Byte) :
    scanDebug c (s ++ later) = .item e (r ++ later) := by
  by_cases hend : c.mDbgEnd ∈ s.take (c.maxDebugPayload + 1)
  · obtain ⟨text, rest, rfl, hlen, hfirst⟩ := exists_debugText hend
    rw [scanDebug_frame hlen hfirst] at h
    cases h
    rw [List.append_assoc, List.cons_append, scanDebug_frame hlen hfirst]
  · rw [scanDebug_of_noEnd hend] at h
    split_ifs at h with hlen
    cases h
    have hwindow : (s ++ later).take (c.maxDebugPayload + 1) = s.take (c.maxDebugPayload + 1) :=
      List.take_append_of_le_length (Nat.not_lt.1 hlen)
    rw [scanDebug_of_noEnd (by rwa [hwindow]), if_neg (by rw [List.length_append]; omega)]

theorem scanReady_append (h : scanReady c s = .item e r) (later : List Byte) :
    scanReady c (s ++ later) = .item e (r ++ later) := by
  match s, h with
  | b :: s, h =>
    by_cases hb : b = c.mPad
    · subst hb
      match s, h with
      | [], h =>
        rw [scanReady_onePad] at h
        cases h
      | fin :: s, h =>
        by_cases hfin : fin = c.mReady
        · subst hfin
          rw [scanReady_frame] at h
          cases h
          exact scanReady_frame _
        · rw [scanReady_of_notReady hfin] at h
          cases h
          exact scanReady_of_notReady hfin _
    · rw [scanReady_of_notPad hb] at h
      cases h
      exact scanReady_of_notPad hb _

/-- What the front of a stream is read as stays right when bytes are appended. -/
theorem scanAt_append {b : Byte} (h : scanAt c b s = .item e r) (later : List Byte) :
    scanAt c b (s ++ later) = .item e (r ++ later) := by
  unfold scanAt at h ⊢
  split_ifs at h ⊢
  · exact scanKey_append h later
  · exact scanLine_append h later
  · exact scanDebug_append h later
  · exact scanReady_append h later
  · cases h
    rfl

end

/-! ### The peer's turns (log 9, log 21) -/

/-- An outbound wire format reports the event its frame is read as. -/
theorem exec_of_frame {e : Event} {i : Instr} (h : e.frame = some i) (s : State) : exec i s = .next (s.report e) := by
  cases e with
  | key | line | debug | ready => cases h; rfl
  | keyBadChk | lineBadChk | lineBadLen | badEnd | skip | incomplete => cases h

/-- Settles O32: the four events that a frame is read as. -/
theorem outboundFramesAreReported : Obligations.OutboundFramesAreReported :=
  fun s _ _ => ⟨exec_of_frame rfl s, exec_of_frame rfl s, exec_of_frame rfl s, exec_of_frame rfl s⟩

section
variable {s : State} {b : Byte} {rest : List Byte}

/-- The decoder's turn takes one event, by the row of its frame or by itself. -/
theorem decoderTurn_of_item {e : Event} {left : List Byte} (hin : s.hostIn = b :: rest)
    (hs : scanAt s.cfg b rest = .item e left) :
    decoderTurn s = .next (State.report { s with hostIn := left } e) := by
  simp only [decoderTurn, hin, hs]
  split
  · exact exec_of_frame ‹_› _
  · rfl

theorem decoderTurn_of_wait (hin : s.hostIn = b :: rest) (hs : scanAt s.cfg b rest = .wait) :
    decoderTurn s = .next s := by
  simp only [decoderTurn, hin, hs]

theorem decoderTurn_of_empty (hin : s.hostIn = []) : decoderTurn s = .next s := by
  simp only [decoderTurn, hin]

/-- A frame at the front of the bytes sent is run as its row. -/
theorem decoderTurn_of_readsAs {bytes : List Byte} {e : Event} {i : Instr} (h : ReadsAs s.cfg bytes e)
    (he : e.frame = some i) (hin : s.hostIn = bytes ++ rest) : decoderTurn s = exec i { s with hostIn := rest } := by
  obtain ⟨b, front, rfl, hs⟩ := h
  rw [decoderTurn_of_item hin (hs rest), exec_of_frame he]

end

/-- Settles O18: a turn that takes an event takes the first event of the whole stream. -/
theorem decoderTurnKeepsTheDecodedStream : Obligations.DecoderTurnKeepsTheDecodedStream := by
  intro s _
  cases hin : s.hostIn with
  | nil => exact ⟨s, decoderTurn_of_empty hin, fun later => by rw [hin]⟩
  | cons b rest =>
    cases hs : scanAt s.cfg b rest with
    | wait => exact ⟨s, decoderTurn_of_wait hin hs, fun later => by rw [hin]⟩
    | item e left =>
      refine ⟨_, decoderTurn_of_item hin hs, fun later => ?_⟩
      rw [List.cons_append, hostDecode_of_item (scanAt_append hs later)]
      exact List.append_assoc _ _ _

/-- The bytes of an outbound row are read as an event of that row. -/
theorem exists_readsAs_of_encode {c : Config} {i : Instr} {bytes : List Byte} (hc : c.WellFormed)
    (hwf : i.wellFormed c = true) (henc : encode c i = .outbound bytes) :
    ∃ e, ReadsAs c bytes e ∧ e.frame = some i := by
  have hm := Config.markers_nodup hc
  have hmax := Config.maxLine_le_255 hc
  cases i with
  | keyFrame code => cases henc; exact ⟨_, keyFrameBytes_readsAs code, rfl⟩
  | lineFrame chars => cases henc; exact ⟨_, lineFrameBytes_readsAs hm hmax (of_decide_eq_true hwf), rfl⟩
  | debugFrame text =>
    cases henc
    obtain ⟨hlen, hend⟩ := of_decide_eq_true hwf
    exact ⟨_, debugFrameBytes_readsAs hm hlen hend, rfl⟩
  | readyFrame => cases henc; exact ⟨_, readyFrameBytes_readsAs hm, rfl⟩
  | begin_ | available | read | write | update | getFe | getStatus | sendKey | sendLine | sendDebug | sendReady
  | readU8 | readU16 | commandFrameIn | serialChar => cases henc

/-- Settles O44: the decoder runs the row its bytes are read as, the driver the row it is to drive. -/
theorem peerTurnsRunTheWireRows : Obligations.PeerTurnsRunTheWireRows := by
  intro s i bytes rest line hc
  refine ⟨fun hwf henc hin => ?_, fun b hline => ?_, fun op args hline => ?_⟩
  · obtain ⟨e, hreads, he⟩ := exists_readsAs_of_encode hc hwf henc
    exact decoderTurn_of_readsAs hreads he hin
  · simp only [driverTurn, hline]
  · simp only [driverTurn, hline]

/-! ### The read primitives (R187 to R189) -/

/-- What an evaluation of a read primitive on the port does to it: it stays, or it completes with a result. -/
theorem PortMove.of_read {p : PortOp} {s t : State} (h : PortMove p s t) (hp : s.port = some p)
    (hi : p.instr = .readU8 ∨ p.instr = .readU16) :
    t.fault = s.fault ∧ ((∃ q, t.port = some q ∧ q.instr = p.instr ∧ t.result = s.result) ∨
      (t.port = none ∧ t.result.isSome = true)) := by
  have hsend : (sentBytes s.cfg p.instr).isSome ≠ true := by
    rcases hi with hi | hi <;> simp [hi, sentBytes]
  cases h with
  | hold => exact ⟨rfl, .inl ⟨p, hp, rfl, rfl⟩⟩
  | session => exact ⟨rfl, .inl ⟨p, hp, rfl, rfl⟩⟩
  | popHigh v => exact ⟨rfl, .inl ⟨{ p with stage := .haveHi v }, rfl, rfl, rfl⟩⟩
  | popAnswer => exact ⟨rfl, .inr ⟨rfl, rfl⟩⟩
  | answer _ h => rcases hi with hi | hi <;> simp [hi] at h
  | configure h | reconfigure h | window h => rcases hi with hi | hi <;> simp [hi] at h
  | defer _ h => exact absurd h hsend
  | startSending h | sent h => exact absurd h hsend

/-- Settles O31: the phase action leaves the port alone, and the port's turn evaluates the read once. -/
theorem blockingReadsAreNeverAbandoned : Obligations.BlockingReadsAreNeverAbandoned := by
  intro s t p hf hp hi hstep
  obtain ⟨-, hostIn, events, line, b, rfl, ⟨hfault, -⟩ | ⟨-, u, v, hm, -, hv, rfl⟩⟩ := step_cases hstep
  · exact absurd hf hfault
  · obtain ⟨-, hport, -, -, -, hufault, -, hresult, -⟩ := hm.frame
    have hup : u.port = some p := hport.trans hp
    have hreq : p.instr.isRequest = true := by rcases hi with hi | hi <;> rw [hi] <;> rfl
    obtain ⟨hvfault, hend⟩ := (portTurn_of_busy hup hreq hv).of_read hup hi
    refine ⟨hvfault.trans (hufault.trans hf), hend.imp_left ?_⟩
    rintro ⟨q, hq, hqi, hqr⟩
    exact ⟨q, hq, hqi, hqr.trans hresult⟩

/-- An operation in any stage is evaluated in the same way whether it was accepted at this tick or before (R110, R111). -/
theorem portOperation_of_stage {i : Instr} {frame : List Byte} {needsBegin : Bool} {stage : Stage}
    {body : PortOp → State → Except Fault State} {s : State}
    (hp : s.port = some ⟨i, frame, stage⟩ ∨ (s.port = none ∧ stage = .new)) (hu : s.atStart.phase ≠ .unconf) :
    portOperation i frame needsBegin body s =
      settle (body ⟨i, frame, stage⟩ { s with port := some ⟨i, frame, stage⟩ }) := by
  rcases hp with hp | ⟨hp, rfl⟩
  · rw [portOperation_of_inProgress hp, ← hp]
  · exact portOperation_new (.inl hp) fun _ => hu

/-- Settles O29: the hold, and the two cases of a pop of a buffer in range. -/
theorem readU8ReturnsAByteOrOpensASession : Obligations.ReadU8ReturnsAByteOrOpensASession := by
  intro s hp hu hrx
  rw [exec, execReadU8, portOperation_new hp (fun _ => hu), Ring.pop_of_ok hrx]
  by_cases hi : s.atStart.phase = .idle
  · rw [if_neg (not_not.2 hi), if_neg (not_not.2 hi)]
    by_cases he : s.rx.head = s.rx.tail
    · rw [if_pos he, if_pos he]
      rfl
    · rw [if_neg he, if_neg he]
      rfl
  · rw [if_pos hi, if_pos hi]
    rfl

/-- The two bytes put together, high byte first, by a shift (R63). -/
theorem pairResult_eq (hi lo : Byte) : pairResult hi lo = hi.setWidth 32 <<< 8 ||| lo.setWidth 32 := by
  refine BitVec.eq_of_getLsbD_eq fun k hk => ?_
  rw [pairResult, BitVec.getLsbD_setWidth, BitVec.getLsbD_append, BitVec.getLsbD_or]
  by_cases hlow : k < 8
  · simp [hk, hlow]
  · simp [hk, hlow, BitVec.getLsbD_of_ge lo k (Nat.not_lt.1 hlow)]

/-- Settles O30: the hold, the session, and the pop in each of the two stages. -/
theorem readU16ReadsTheHighByteFirst : Obligations.ReadU16ReadsTheHighByteFirst := by
  intro s stage hp hstage hu hrx
  rw [exec, execReadU16, portOperation_of_stage hp hu, Ring.pop_of_ok hrx]
  by_cases hi : s.atStart.phase = .idle
  · rw [if_neg (not_not.2 hi), if_neg (not_not.2 hi)]
    by_cases he : s.rx.head = s.rx.tail
    · rw [if_pos he, if_pos he]
      rfl
    · rw [if_neg he, if_neg he]
      cases stage with
      | new => rfl
      | sending => exact absurd rfl hstage
      | haveHi high => simp only [← pairResult_eq]; rfl
  · rw [if_pos hi, if_pos hi]
    rfl

end Sys2Proof.Machine
end

section
/-! PROOFS. Faults and refusals (spec 60_exceptions.md). A fault is raised by a check on a presented request and leaves
its record. Every part of a tick completes with the buffers in range, so a step stops only for its configuration. -/

namespace Sys2Proof.Machine

/-! ### Faults of a presented request (R221, R222) -/

theorem isRequest_of_encode {c : Config} {i : Instr} {w : Word16} {payload : List Byte}
    (h : encode c i = .request w payload) : i.isRequest = true := by
  cases i with
  | keyFrame | lineFrame | debugFrame | readyFrame | commandFrameIn | serialChar => cases h
  | begin_ | available | read | write | update | getFe | getStatus | sendKey | sendLine | sendDebug | sendReady
  | readU8 | readU16 => rfl

theorem requestWord_of_encode {c : Config} {i : Instr} {w : Word16} {payload : List Byte}
    (h : encode c i = .request w payload) : requestWord c i = w := by
  rw [requestWord, h]

/-- Settles O28: check (4) of R88, which records the word the request encodes to. -/
theorem unconfiguredRequestsRaiseNotConfigured : Obligations.UnconfiguredRequestsRaiseNotConfigured := by
  intro s i w payload he hbegin hstatus hp hu
  rw [exec_of_unconf (isRequest_of_encode he) hbegin hstatus hp hu, requestWord_of_encode he]
  rfl

section
variable {w : Word16} {payload : List Byte} {s u : State}

/-- Checks (1) to (3) of R88, as one fault: a reserved request is illegal whatever its payload. -/
theorem presentRequest_of_refused (h : ReservedRequest w ∨ ¬ LegalPayload s.cfg w payload) :
    presentRequest w payload s =
      .next (s.raise (if ReservedRequest w then .illegalOp else .badOperand) w
        (if ReservedRequest w then none else some payload.length)) := by
  by_cases hr : ReservedRequest w
  · rw [if_pos hr, if_pos hr, presentRequest_of_reserved hr]
  · rw [if_neg hr, if_neg hr, presentRequest_of_illegalPayload hr (h.resolve_left hr)]

/-- The tick of a block without fault (R140). -/
theorem blockTurn_of_phaseAction (hf : s.fault = none) (hu : phaseAction s.beginTick = .ok u) :
    blockTurn s = andThen (portTurn u) (fun v => .next (s.endTick v)) := by
  rw [blockTurn, if_neg (not_not.2 hf), hu]

end

/-- Settles O47: the port's turn is the refusal, and the registers that the end of the tick reads are those the tick
began with, since no phase action touches them. -/
theorem refusedRequestsLeaveOnlyTheFaultRecord : Obligations.RefusedRequestsLeaveOnlyTheFaultRecord := by
  intro s u notBefore w payload rest hf hp hcl hdue hu hrefused
  obtain ⟨-, hport, hcfg, -, hnow, -, hclient, hresult, hline, -⟩ := (phaseAction_move hu).frame
  have hpresent := presentRequest_of_refused (s := { u with client := rest }) (payload := payload) (hcfg ▸ hrefused)
  refine ⟨⟨_, w, _⟩, rfl, rfl, rfl, ?_⟩
  rw [blockTurn_of_phaseAction hf hu, portTurn_of_due (hport.trans hp) (hclient.trans hcl) (hnow ▸ hdue), hpresent,
    andThen_next]
  simp only [State.endTick, State.raise, hcfg, hnow, hresult, hline]
  rfl

/-! ### Every part of a tick completes (R220) -/

section
variable {s : State}

/-- A refused request is a fault record, an accepted one an evaluation. -/
theorem presentRequest_completes (hr : s.rx.Ok s.cfg.cap) (ht : s.tx.Ok s.cfg.cap) (w : Word16) (payload : List Byte) :
    ∃ t, presentRequest w payload s = .next t := by
  by_cases h : ReservedRequest w ∨ ¬ LegalPayload s.cfg w payload
  · exact ⟨_, presentRequest_of_refused h⟩
  · obtain ⟨hn, hl⟩ := not_or.1 h
    obtain ⟨i, -, he⟩ := presentRequest_of_legal hn (not_not.1 hl)
    rw [he]
    exact exec_completes hr ht i

theorem portTurn_completes (hr : s.rx.Ok s.cfg.cap) (ht : s.tx.Ok s.cfg.cap) : ∃ t, portTurn s = .next t := by
  cases hp : s.port with
  | some p =>
    rw [portTurn_of_inProgress hp]
    exact exec_completes hr ht p.instr
  | none =>
    match hcl : s.client with
    | [] => exact ⟨s, portTurn_of_silent hp hcl⟩
    | .request notBefore w payload :: rest =>
      by_cases hdue : notBefore ≤ s.now
      · rw [portTurn_of_due hp hcl hdue]
        exact presentRequest_completes (s := { s with client := rest }) hr ht w payload
      · exact ⟨s, by simp only [portTurn, hp, hcl, if_neg hdue]⟩
    | .waitIdle notBefore :: rest =>
      obtain ⟨t, hpoll⟩ := presentRequest_completes hr ht (requestWord s.cfg .getStatus) []
      simp only [portTurn, hp, hcl, hpoll, andThen_next]
      split_ifs <;> exact ⟨_, rfl⟩

theorem blockTurn_completes (h : s.BuffersInRange) : ∃ t, blockTurn s = .next t := by
  by_cases hf : s.fault = none
  · have ⟨hrx, htx, _⟩ := h
    obtain ⟨u, hu⟩ := phaseAction_completes (s := s.beginTick) hrx htx
    obtain ⟨hurx, hutx, -⟩ := (phaseAction_move hu).keeps_buffersInRange h
    obtain ⟨v, hv⟩ := portTurn_completes hurx hutx
    exact ⟨s.endTick v, by rw [blockTurn_of_phaseAction hf hu, hv, andThen_next]⟩
  · exact ⟨s.faultedTick, if_pos hf⟩

end

/-- Settles O55: a step tests the configuration first; after that the peer's turns leave the buffers alone, and the
block's turn completes. -/
theorem onlyIllFormedConfigurationsStop : Obligations.OnlyIllFormedConfigurationsStop := by
  refine fun s => ⟨fun hc => if_neg hc, fun hc h => ?_⟩
  obtain ⟨_, _, _, -, -, hstep⟩ := step_eq hc
  rw [hstep]
  exact blockTurn_completes h

end Sys2Proof.Machine
end

section
/-! PROOFS. Reset and hazards (spec 70_reset_and_hazards.md). BEGIN at the first tick gives the launch state, and the pins
keep the line free of collisions along every run. -/

namespace Sys2Proof.Machine

/-! ### Launch (R253) -/

/-- BEGIN, presented in UNCONF, completes and leads to IDLE (R114). -/
theorem exec_begin_of_unconf {s : State} (hp : s.port = none) (hu : s.atStart.phase = .unconf) :
    exec .begin_ s = .next ((State.configurePins { s with phase := .idle }).complete 0) :=
  (beginConfiguresThePins s (.inl hp)).1 hu

/-- The tick of UNCONF at which the client presents BEGIN: no phase action (R142), and the port's turn configures the
pins (R114), on a state in which only the peer's lists have changed. -/
theorem step_of_begin {s : State} {notBefore : Nat} {rest : List ClientItem} (hc : s.cfg.WellFormed)
    (hu : s.phase = .unconf) (hf : s.fault = none) (hp : s.port = none)
    (hcl : s.client = .request notBefore 0x0100 [] :: rest) (hdue : notBefore ≤ s.now) :
    ∃ (hostIn : List Byte) (events : List Event) (line : List LineItem) (b : State),
      b = State.beginTick { s with hostIn := hostIn, hostEvents := events, peerLine := line } ∧
      step s = .next (b.endTick ((State.configurePins { b with phase := .idle, client := rest }).complete 0)) := by
  obtain ⟨hostIn, events, line, hdec, hdrv, -⟩ := step_eq hc
  refine ⟨hostIn, events, line, _, rfl, ?_⟩
  have haction := idlePhasesTakeNoAction
    (State.beginTick { s with hostIn := hostIn, hostEvents := events, peerLine := line }) (.inl hu)
  rw [stepRunsTheDecodedRequest s _ _ _ .begin_ notBefore _ _ rest hc hdec hdrv hf haction hp hcl hdue rfl rfl,
    exec_begin_of_unconf]
  · rfl
  · exact hp
  · exact hu

/-- Settles O49: the tick gives the pins, the phase, the port and the result; the other registers of the launch state
keep their reset values. -/
theorem beginFromResetReachesCleanIdle : Obligations.BeginFromResetReachesCleanIdle := by
  intro s hc hu hrec hie hfe hrxHead hrxTail htxHead htxTail hprev hpend _ _
  obtain ⟨hostIn, events, line, b, rfl, hstep⟩ :=
    step_of_begin (s := s.withFetchWord 16 0x0100) hc hu rfl rfl rfl le_rfl
  have hrxEmpty : s.rx.head = s.rx.tail := hrxHead.trans hrxTail.symm
  have htxEmpty : s.tx.head = s.tx.tail := htxHead.trans htxTail.symm
  exact ⟨_, hstep, ⟨rfl, rfl, rfl, hrec, rfl, rfl, rfl, rfl, hie, hpend, hrxEmpty, htxEmpty, hfe, hprev⟩, rfl, rfl⟩

/-! ### No collision (R258) -/

section
variable {M : Host.Core} {P : M.State → Prop}

/-- What every step keeps, every run keeps. -/
theorem run_keeps (hstep : ∀ s t, P s → M.step s = .next t → P t) :
    ∀ (n : Nat) {s t : M.State}, P s → M.run n s = .next t → P t := by
  intro n
  induction n with
  | zero =>
    intro s t hs h
    cases h
    exact hs
  | succ n ih =>
    intro s t hs h
    cases hu : M.step s with
    | next u => exact ih (hstep s u hs hu) (run_succ_of_next n hu ▸ h)
    | fault r | refused r =>
      simp only [Host.Core.run, hu] at h
      cases h

end

/-- TX is high impedance in UNCONF, moves only in TX, where the ready-signal is high, and is high in every other phase. -/
theorem State.noCollision_of_pinsFollowPhase {s : State} (hs : s.PinsFollowPhase) : s.NoCollision := by
  intro hlow
  by_cases hu : s.phase = .unconf
  · obtain ⟨-, hz, -⟩ := (pinsFollowPhase_unconf hu).1 hs
    rw [hz] at hlow
    cases hlow
  · by_cases ht : s.phase = .tx
    · obtain ⟨-, -, -, hready, -⟩ := (pinsFollowPhase_tx ht).1 hs
      exact hready
    · obtain ⟨-, -, -, -, hhigh⟩ := (pinsFollowPhase_of_not_tx hu ht).1 hs
      rw [hhigh] at hlow
      cases hlow

/-- Settles O56: the pins follow the phase along the whole run, by O51, and such pins do not collide. -/
theorem noCollisionOnAnyRun : Obligations.NoCollisionOnAnyRun :=
  fun n _ _ hs h => State.noCollision_of_pinsFollowPhase (run_keeps (M := core) stepKeepsPinsFollowingThePhase n hs h)

end Sys2Proof.Machine
end
